-- ==== Sys2Proof/Word.lean ====
section
/-! DEFINITION. Word types of the model: bytes, register quadwords, headers, tails and flits, with the sizes spec/02 gives them. -/

namespace Sys2Proof

/-- One byte. -/
abbrev Byte := BitVec 8

/-- One BAR0 register: 8 B (R441). -/
abbrev W64 := BitVec 64

/-- A packet header, bits [255:0] (R36). -/
abbrev Hdr := BitVec 256

/-- The tail of a long packet, bits [127:0] (R43). -/
abbrev Tail := BitVec 128

/-- A flit, bits [2047:0] (R46). -/
abbrev Flit := BitVec 2048

/-- A SHA-512 digest (R353, R382). -/
abbrev Digest := BitVec 512

end Sys2Proof
end

