-- ==== Sys2Proof/Syntax.lean ====
section
/-! DEFINITION. The commands of the block: one constructor of Instr for each row of spec/opcode_table.json, and the types of
their operands. The table gives no operands: an operand is what the rule of the row needs from outside (the part, the unit, the
packet or value that arrives, what a measurement or the surroundings answer). -/

namespace Sys2Proof

/-- The two parts (R18): the Mladora switch and the Dunsa end point. -/
inductive Dev where
  | sw
  | ep
  deriving DecidableEq, Repr

/-- A packet as it stands on the fabric (R36, R43). A short packet's tail is 0 and is not sent. -/
structure Packet where
  hdr     : Hdr
  payload : List Byte
  tail    : Tail
  deriving DecidableEq, Repr

/-- What a host write addresses: a BAR0 access of `size` bytes (R441), or the two enables of configuration space that other
rules read (R440). -/
inductive RegWrite where
  | bar0 (off size val : Nat)
  | busMaster (on : Bool)
  | msixEnable (on : Bool)
  deriving DecidableEq, Repr

/-- The leaky buckets (R419), each with the resource it is held for. -/
inductive BucketId where
  | wlUcw (port wl : Nat)
  | wlSer (port wl : Nat)
  | portRcv (port : Nat)
  | tile (t : Nat)
  | engine (e : Nat)
  | hbmPc (pc : Nat)
  deriving DecidableEq, Repr

/-- A virtual output queue (R259). Sources: ports 0-71, HOME 72, COLL 73, MGMT 74, ANSWER 75. -/
structure VoqKey where
  src  : Nat
  eq   : Nat
  qset : Nat
  tc   : Nat
  deriving DecidableEq, Repr

/-- A chunk of a collective slot. -/
structure ChunkRef where
  slot  : Nat
  chunk : Nat
  deriving DecidableEq, Repr

/-- The errors in the memory lines one access touches, by line number (offset bits [43:6]): how many bytes of a line are wrong, and the
lines read back from an address other than their own (R319). -/
structure Ecc where
  errs  : List (Nat × Nat)
  moved : List Nat
  deriving DecidableEq, Repr

namespace Ecc

/-- Lines the ECC corrects: one byte is wrong (R319). -/
def ce (e : Ecc) : List Nat := (e.errs.filter (fun x => x.2 == 1)).map Prod.fst

/-- Lines the ECC detects and cannot correct: more bytes are wrong, or the line is another's (R319, log 138). -/
def ue (e : Ecc) : List Nat := (e.errs.filter (fun x => decide (2 ≤ x.2))).map Prod.fst ++ e.moved

end Ecc

/-- Where an uncorrectable error inside a tile lies (R425). -/
inductive TileFault where
  | tables
  | buffers
  | crossbar
  deriving DecidableEq, Repr

/-- What an ENGINE bucket counts (R419). -/
inductive EngineErr where
  | roundMismatch
  | parity
  deriving DecidableEq, Repr

/-- Scopes of a release or an acquire (R102). -/
inductive Scope where
  | engine
  | chip
  | island
  | fabric
  deriving DecidableEq, Repr

/-- Range of an acquire (R108). -/
inductive AcqRange where
  | none
  | all
  | block (addr k : Nat)
  deriving DecidableEq, Repr

/-- A stream (R52): source node, context, epoch, destination node, class. -/
structure StreamKey where
  src   : Nat
  ctx   : Nat
  epoch : Nat
  dst   : Nat
  tc    : Nat
  deriving DecidableEq, Repr

/-- Answer of the host IOMMU to an ATS Translation Request (R153): the page's virtual base, its size in bytes, the fabric
address it maps to and the permissions granted; or no translation. -/
inductive AtsAnswer where
  | none
  | page (va size fabric : Nat) (rd wr : Bool)
  deriving DecidableEq, Repr

/-- Result of an identity derivation (R382, R383). -/
inductive IdentResult where
  | ok
  | failed
  deriving DecidableEq, Repr

/-- A Genard command inside a session: the session and the bytes of its request payload (R394). -/
structure GenardHead where
  sess : Nat
  req  : List Byte
  deriving DecidableEq, Repr

/-- Outcome of a FW_LOAD in the background (R458, R459). -/
inductive FwResult where
  | ok
  | verifyFailed
  | flashFailed
  | fetchFailed
  deriving DecidableEq, Repr

/-- What stopped the clocks (R479): REFCLK, or the PLL of a PLL_LOCK bit. -/
inductive ClockCause where
  | refclk
  | pll (bit : Nat)
  deriving DecidableEq, Repr

/-- A frame on the management port (R486). A PTP message carries the offset the servo estimates from it, in units of 2^-8 ns
(the arithmetic of IEEE 1588 lies outside the spec), and whether it completes a Sync interval. -/
inductive MgmtFrame where
  | ptp (offset : Int) (syncEnd : Bool)
  | other
  deriving DecidableEq, Repr

/-- The algorithms a NEGOTIATE_ALGORITHMS request offers, one flag for each algorithm the part selects (R392). -/
structure AlgOffer where
  baseAsym : Bool
  reqAsym  : Bool
  hash     : Bool
  measHash : Bool
  dhe      : Bool
  aead     : Bool
  keySched : Bool
  deriving DecidableEq, Repr

/-- The commands. One constructor for each row of the opcode table, in the table's order. -/
inductive Instr where
  -- host register access and resets
  | writeRegister (d : Dev) (w : RegWrite)
  | readClear (d : Dev) (off size : Nat) (ecc : Ecc)
  | powerOn (d : Dev)
  | perstAssert (d : Dev)
  | perstRelease (d : Dev)
  | pcieLinkReset (d : Dev) (linkUp : Bool)
  | bar0BadAccess (d : Dev) (isWrite : Bool) (off size : Nat)
  | msixUnmask (d : Dev) (v : Nat)
  -- link layer
  | dataFlitReceive (d : Dev) (port : Nat) (f : Flit)
  | ctrlFlitReceive (d : Dev) (port : Nat) (f : Flit)
  | replayTimerExpiry (d : Dev) (port : Nat)
  | replayBudgetExpiry (d : Dev) (port : Nat)
  | flitSend (d : Dev) (port : Nat)
  -- optics, recovery, laser supply
  | uncorrectableCodeword (d : Dev) (port wl : Nat)
  | serWindowEnd (d : Dev) (port wl corrected received : Nat)
  | bucketDrain (d : Dev) (b : BucketId)
  | wavelengthLoss (d : Dev) (port wl : Nat)
  | lockLost (d : Dev) (port : Nat)
  | lightLost (d : Dev) (port : Nat)
  -- a marker: the 120 bits one wavelength receives (R405)
  | subst (d : Dev) (port wl marker : Nat)
  | substAck (d : Dev) (port wl marker : Nat)
  | substSwitchover (d : Dev) (port : Nat)
  | substTimeout (d : Dev) (port : Nat)
  | paramNode (d : Dev) (port wl marker : Nat)
  | paramPort (d : Dev) (port wl marker : Nat)
  | rxMap (d : Dev) (port wl marker qualified : Nat)
  | linkUp (d : Dev) (port : Nat)
  | trainingTimeout (d : Dev) (port : Nat)
  | trainingWaitEnd (d : Dev) (port : Nat)
  | lightDetected (d : Dev) (port wl : Nat)
  | retrain (d : Dev) (port : Nat)
  | portRetire (d : Dev) (port : Nat)
  | unretire (d : Dev) (port : Nat)
  | portEnable (d : Dev) (port : Nat) (on : Bool)
  | loopbackTestDone (port : Nat) (pass : Bool)
  | laserFailover (d : Dev) (k pwr : Nat)
  | laserInputLost (d : Dev) (k priPwr redPwr : Nat)
  | lsupLossPatchTrigger (k : Nat)
  | laserLightReturn (d : Dev) (k : Nat) (redundant : Bool) (pwr : Nat)
  | usePrimary (d : Dev) (k : Nat)
  -- tiles and patching
  | tileInternalError (t : Nat) (where_ : TileFault) (copies : List Nat)
  | engineFault (e : Nat) (err : EngineErr) (held : List ChunkRef)
  | patchGo (tile : Nat)
  | patchBegin (held : List ChunkRef)
  | patchMove (selfTests : List Bool)
  | patchEnd
  -- switch core
  | switchIngress (port : Nat) (p : Packet)
  | spillComplete (copy : Nat)
  | refill (q : VoqKey) (ecc : Ecc)
  | sampleEntryWrite
  | egressArbitrate (eq : Nat)
  | calendarSlotStart (cal : Nat)
  | frameFoundBad (copy reason : Nat)
  | cmapIntervalEnd
  | swatchEnable (on : Bool)
  -- fabric memory
  | bar2Write (off : Nat) (bytes : List Byte) (ecc : Ecc)
  | bar2Read (off len : Nat) (ecc : Ecc)
  | sweepStep (n : Nat) (ecc : Ecc)
  | scrubStep (line : Nat) (ecc : Ecc)
  -- lath loader
  | lathLoad (part : Option (Nat × Nat × Nat))
  | lathImageFetched (image : Option (List Byte))
  | lathInForce
  | groupClearDone (g : Nat)
  -- SPDM and DOE
  | getVersion (d : Dev)
  | getCapabilities (d : Dev)
  | negotiateAlgorithms (d : Dev) (offer : AlgOffer)
  | getDigests (d : Dev) (sess : Option Nat)
  | getCertificate (d : Dev) (slot : Nat) (sess : Option Nat)
  | challenge (d : Dev) (slot nonce : Nat) (sess : Option Nat)
  | getMeasurements (d : Dev) (index : Nat) (signed : Bool) (sess : Option Nat)
  | keyExchange (d : Dev)
  | finish (d : Dev) (sess : Nat) (verified : Bool)
  | getEncapsulatedRequest (d : Dev) (sess : Nat)
  | deliverEncapsulatedResponse (d : Dev) (sess : Nat) (cert : Option Digest)
  | heartbeat (d : Dev) (sess : Nat)
  | keyUpdate (d : Dev) (sess : Nat)
  | endSession (d : Dev) (sess : Nat)
  | respondIfReady (d : Dev)
  | spdmUnsupported (d : Dev) (code : Nat)
  | doeDiscovery (d : Dev) (index : Nat)
  | sessionTimeout (d : Dev) (sess : Nat)
  -- Genard key commands
  | install (d : Dev) (h : GenardHead)
  | makeCurrent (d : Dev) (h : GenardHead)
  | keyFlip (d : Dev) (partId : Nat)
  | retire (d : Dev) (h : GenardHead)
  | retireForce (d : Dev) (h : GenardHead)
  | keySlotEmptied (d : Dev) (partId : Nat)
  | holdoffClear (d : Dev) (partId : Nat)
  | clear (d : Dev) (h : GenardHead)
  | partStatus (d : Dev) (h : GenardHead)
  | readCounters (d : Dev) (h : GenardHead)
  | readSlot (d : Dev) (h : GenardHead)
  | readEvents (d : Dev) (h : GenardHead)
  | setOwner (d : Dev) (h : GenardHead)
  | readLathLog (d : Dev) (h : GenardHead)
  | secFlush (partId : Nat)
  | identDerived (d : Dev) (r : IdentResult)
  | jtagInstruction (d : Dev) (isIdcode isBypass : Bool) (ir : Nat)
  | throttleBoundary (meanPower : Nat)
  | throttleUpdate (meanPower : Nat) (tj : Int)
  -- direct accesses and ordering requests
  | directLoad (ctx eng va size : Nat) (fcBad : Bool)
  | directStore (ctx eng va : Nat) (bytes : List Byte)
  | directAtomic (ctx eng va opcode opq : Nat) (operand : List Byte)
  | release (ctx eng : Nat) (scope : Scope)
  | releaseStore (ctx eng : Nat) (scope : Scope) (addr : Nat) (flag : List Byte)
  | releaseAtomic (ctx eng : Nat) (scope : Scope) (addr opcode opq : Nat) (operand : List Byte)
  | releaseComplete (id : Nat)
  | acquireLoad (ctx eng : Nat) (scope : Scope) (addr size : Nat) (range : AcqRange)
  | acquire (ctx eng : Nat) (scope : Scope) (range : AcqRange)
  -- issue, retry and outcome of requests
  | requestIssue (id tag : Nat) (ecc : Ecc) (fcBad : Bool)
  | retryDue (id : Nat)
  | retrySend (id : Nat)
  | retryAbandon (id : Nat)
  | outcomeExpiry (id : Nat)
  | tagReleaseTimer (tag : Nat)
  | readResp (port : Nat) (p : Packet)
  | atomicResp (port : Nat) (p : Packet)
  | completion (port : Nat) (p : Packet)
  | cwIncrease (k : StreamKey)
  -- requests at the home
  | read (d : Dev) (port : Nat) (p : Packet) (ecc : Ecc)
  | write (d : Dev) (port : Nat) (p : Packet) (ecc : Ecc)
  | topcoatWrite (d : Dev) (port : Nat) (p : Packet) (ecc : Ecc)
  | topcoatExpiry (d : Dev) (k : StreamKey) (seq : Nat)
  | fetchAdd (d : Dev) (port : Nat) (p : Packet) (ecc : Ecc)
  | swap (d : Dev) (port : Nat) (p : Packet) (ecc : Ecc)
  | compareSwap (d : Dev) (port : Nat) (p : Packet) (ecc : Ecc)
  | fetchAnd (d : Dev) (port : Nat) (p : Packet) (ecc : Ecc)
  | fetchOr (d : Dev) (port : Nat) (p : Packet) (ecc : Ecc)
  | fetchXor (d : Dev) (port : Nat) (p : Packet) (ecc : Ecc)
  | fetchMin (d : Dev) (port : Nat) (p : Packet) (ecc : Ecc)
  | fetchMax (d : Dev) (port : Nat) (p : Packet) (ecc : Ecc)
  | tallyInc (d : Dev) (port : Nat) (p : Packet)
  | dsEntryExpiry (d : Dev) (k : StreamKey) (seq : Nat)
  | completionFlush (d : Dev)
  -- coherence
  | invalidateResend (snoop : Nat)
  | invalidationTimeout (id : Nat)
  | invalidate (port : Nat) (p : Packet)
  | invAck (port : Nat) (p : Packet)
  | dropAll (port : Nat) (p : Packet)
  | localStore (off : Nat) (bytes : List Byte)
  | homeAccessAnswer (id : Nat) (ok : Bool)
  | islandWrite (n val : Nat)
  | hwinCtlWrite (n val : Nat)
  | nodeEntryWrite (n val : Nat)
  -- contexts
  | activate (n : Nat) (desc : Option (List Byte))
  | epochTaken (n : Nat)
  | load (n : Nat) (save : Option (List Byte))
  | preempt (n : Nat)
  | preemptNow (n : Nat)
  | preemptStop (n : Nat)
  | resumeRetry (n : Nat)
  | resumeSkip (n : Nat)
  | ctxAbort (n : Nat)
  | ctxAbortComplete (n : Nat) (posted : Bool)
  | tagQuarantineEnd (n : Nat)
  | contextRelease (n : Nat)
  | epochRoll (n : Nat)
  -- descriptor programs
  | prodWrite (n val : Nat)
  | descriptorFetch (n : Nat) (ecc : Ecc)
  | engineSwitch (e n : Nat)
  | copy (n : Nat)
  | store (n : Nat)
  | topcoat (n : Nat)
  | contrib (n : Nat)
  | wait (n : Nat)
  | waitMet (n : Nat)
  | signal (n : Nat)
  | reservedDescriptor (n : Nat)
  -- translation
  | atsCompletion (id : Nat) (a : AtsAnswer)
  | prgResponse (id : Nat) (success : Bool)
  | atsPriTimeout (id : Nat)
  | fqResume
  | atsInvalidate (itag pasid va size : Nat)
  | invalidateCompletion (itag : Nat)
  -- tallies, datagrams, abort at the end point
  | tallyCfgWrite (n val : Nat)
  | tallyTargetWrite (n target : Nat)
  | dgqCfgWrite (q val : Nat)
  | datagramSend (q : Nat) (entry frame : List Byte)
  | datagram (port : Nat) (p : Packet) (buf : Nat)
  | abortNotice (port : Nat) (p : Packet)
  | epPartAbort (partId : Nat)
  -- collective slots at the switch; `mis`: the two rounding units disagree on the chunk this packet completes (R203)
  | slotAdmit (n : Nat)
  | slotAdmitted (n : Nat)
  | slotClose (n : Nat)
  | slotRelease (n : Nat)
  | collContrib (port : Nat) (p : Packet) (mis : Bool)
  | collPartial (port : Nat) (p : Packet) (mis : Bool)
  | collExponents (port : Nat) (p : Packet)
  | accumulatorUe (c : ChunkRef) (corrected : Bool)
  | ready (port : Nat) (p : Packet)
  | join (port : Nat) (p : Packet)
  | resultAck (port : Nat) (p : Packet)
  | closeAck (port : Nat) (p : Packet)
  | doneAck (port : Nat) (p : Packet)
  | resultNack (port : Nat) (p : Packet)
  | chunkFail (port : Nat) (p : Packet)
  | collScreed (port : Nat) (p : Packet)
  | freed (port : Nat) (p : Packet)
  | close (port : Nat) (p : Packet)
  | done (port : Nat) (p : Packet)
  | collResult (port : Nat) (p : Packet)
  | recontrib (port : Nat) (p : Packet)
  | progressTimeout (n : Nat)
  | closePhaseEnd (n : Nat)
  | doneTimeout (n : Nat)
  | collResendTimer (d : Dev) (n : Nat)
  | fragmentRequestTimer (c : ChunkRef) (leg : Nat)
  | childStallTimer (c : ChunkRef) (leg : Nat)
  | resultResendTimer (c : ChunkRef)
  -- collective members
  | joinReply (port : Nat) (p : Packet)
  | joinRefuse (port : Nat) (p : Packet)
  | memberScreed (port : Nat) (p : Packet)
  | chunkSend (entry : Nat)
  | memberRecontrib (port : Nat) (p : Packet)
  | memberResult (port : Nat) (p : Packet)
  | resultWriteDone (entry chunk : Nat)
  | resultNackTimer (entry chunk : Nat)
  | memberFreed (port : Nat) (p : Packet)
  | memberClose (port : Nat) (p : Packet)
  | memberDone (port : Nat) (p : Packet)
  | memberSilenceTimeout (entry : Nat)
  -- mailbox and doorbells
  | mboxSend (d : Dev)
  | mboxDataWrite (d : Dev) (k val : Nat)
  | mboxTake (d : Dev)
  | mboxTimeout (d : Dev)
  | mboxAckPost (d : Dev)
  | mboxAckClear (d : Dev)
  | ping (d : Dev)
  | getInfo (d : Dev)
  | fwLoad (d : Dev)
  | fwLoadDone (d : Dev) (r : FwResult)
  | dbgPeek (d : Dev)
  | dbgPoke (d : Dev)
  | dbgTrace (d : Dev)
  | unknownMsg (d : Dev)
  | dbMaskWrite (d : Dev) (val : Nat)
  -- partition abort
  | abortAll (d : Dev)
  | partAbort (n : Nat)
  | partAbortComplete (n : Nat)
  | partResume (n : Nat)
  -- clocks and time
  | clockLoss (d : Dev) (c : ClockCause)
  | refclkReturn (d : Dev)
  | timeSync (d : Dev) (port : Nat) (p : Packet)
  | timeReply (d : Dev) (port : Nat) (p : Packet)
  | timeSyncTimer (d : Dev)
  | timeSourceLost (d : Dev)
  | ptpMessage (f : MgmtFrame)
  | timeCtlWrite (d : Dev) (val : Nat)
  | timeNsRead (d : Dev)
  -- supply, power, temperature
  | supplyWarning (vin : Nat)
  | supplyRise (vin : Nat)
  | holdEnd (mean10 : Nat) (tjMax10 : Int)
  | holdEscalation
  | undervoltageReset (vin : Nat)
  | undervoltResetEnd (railsHeld : Bool)
  | railFault
  | powerHold (meanPower : Nat)
  | thermalHold (tj : Int)
  | thermalShutdown (d : Dev) (tj : Int)
  | thermalWarn (d : Dev) (tj : Int)
  -- start-up
  | bootRomVerify (d : Dev) (valid : Bool) (imageDigest : Digest)
  | firmwareStart (d : Dev) (failed : List Nat)
  | switchStartComplete (ownerValid : Bool)
  | ucieTrained
  | ucieRetrain (m : Nat)
  | smbusBlockRead (d : Dev) (cmd : Nat)
  | warningClearingFall (vin : Nat)
  | railResetEnd
  | ucieModuleRetrained (m : Nat)
  | vendorDefinedRequest (d : Dev) (sess : Option Nat) (req : List Byte)
  deriving DecidableEq, Repr

end Sys2Proof
end

