-- ==== Sys2Proof/Config.lean ====
section
/-! DEFINITION. What an implementation fixes and what the spec leaves open: constants without a body, so that no proof can see a
value of one. A free value drawn once is applied to the counter `Blk.free`; others are applied to what they depend on. -/

namespace Sys2Proof.Config

open Sys2Proof

/-- A fresh number the spec leaves open (logs 9 and those that name a free value). -/
opaque freeNat : Nat → Nat

/-- A fresh byte the spec leaves open. -/
opaque freeByte : Nat → Byte

/-- SHA-512 (FIPS 180-4, outside the spec; used by R340, R353, R382, R384). -/
opaque sha512 : List Byte → Digest

/-- RSASSA-PSS verification under RFC 8017 (R340, R389): modulus, signed bytes, signature. -/
opaque pssVerify : List Byte → List Byte → List Byte → Bool

/-- Release identity of a firmware image, by its digest: version and FW_SVN (R458: each firmware release states its own). -/
opaque fwVersion : Digest → Nat
opaque fwSvn : Digest → Nat

/-- Digest of a part's boot ROM, by DEVICE of its ID register (R384: the value is not given). -/
opaque romDigest : Nat → Digest

/-- Receive buffer of an end-point port for a class, in slots (R51: the lath image sets the switch's carves; the end point's are
not given). -/
opaque epCarve : Nat → Nat

/-- Random 16-bit values of a QSET's generator behind random early drop and congestion marks (R276, R279). -/
opaque rand16 : Nat → Nat → BitVec 16

/-- The fixed order in which consecutive blocks go to the pseudo-channels of a pool (R310: the order is not given): what the k-th choice
among those left is. -/
opaque pcOrder : List Nat → Nat → Nat

/-- Row and bank of a line (R331: the placement is not given). -/
opaque hbmRow : Nat → Nat
opaque hbmBank : Nat → Nat

/-- Line of the overflow carve that holds a cell of a spilled copy: copy, cell (R266: the placement is not given). -/
opaque ovfLine : Nat → Nat → Nat

/-- Home-agent engine, by logical tile, of a fabric-memory line (R313: the function is not given). -/
opaque homeTile : Nat → Nat

/-- Set of the directory that holds a line (R119: the function is not given). -/
opaque dirSet : Nat → Nat

/-- Set of the far cache that holds a line of a node (R97: the function is not given). -/
opaque fcSet : Nat → Nat → Nat

/-- Spare rows of a bank of a pseudo-channel (R331: the number is not given). -/
opaque spareRows : Nat → Nat → Nat

/-- AES-256 in XTS mode under IEEE 1619 (R317, outside the spec): a byte of what data become under a key, with the line's node offset as
the tweak; and the byte that decrypting gives. Decrypting under the same key and tweak gives the data back (`State.line` keeps them). -/
opaque xtsEncrypt : BitVec 512 → Nat → List Byte → Nat → Byte
opaque xtsDecrypt : BitVec 512 → Nat → List Byte → Nat → Byte

/-- The four check bytes of the line ECC (R319: the generator of the Reed-Solomon code is not given): the 64 bytes as stored, sideband bits
[31:0], the line's place in HBM. -/
opaque lineEcc : List Byte → Nat → Nat → Nat

/-- The identity digest of a part (R382), by part: the same at every start; and the digest of the key its device certificate in flash is
for. -/
opaque idDigest : Nat → Digest
opaque certKey : Nat → Digest

end Sys2Proof.Config
end

