-- ==== Sys2Proof/Machine/State.lean ====
section
/-! DEFINITION. The state of the block: a Mladora switch and a Dunsa end point side by side, the commands that wait, and what
the block has sent. Everything is plain data. What a BAR0 register shows has its one home in `Core.regs`, keyed by the
register's offset; an unlisted register holds its reset value (Machine/RegMap.lean). -/

namespace Sys2Proof.Machine

open Sys2Proof

/-- A table of entries by number, strictly rising, without entries equal to the table's default (Machine/Bits.lean). -/
abbrev Tbl (α : Type) := List (Nat × α)

/-! ## What the block sends -/

/-- Messages to the accelerator (R524). -/
inductive Ucie where
  /-- Answer of a direct access or an ordering request: context, engine, COMP_STATUS, data (R66, R105). -/
  | answer (ctx eng status : Nat) (data : List Byte)
  /-- Response of a local store the home carried (R125). -/
  | storeDone (id : Nat) (ok : Bool)
  /-- An access the home performs on accelerator memory (R115): identifier, write or read, offset, bytes. -/
  | homeAccess (id : Nat) (isWrite : Bool) (off len : Nat)
  /-- A tally fired with UCIE_EN (R146, R148). -/
  | tallyNotice (tally : Nat)
  deriving DecidableEq, Repr

/-- The SPDM capabilities a part sets (R392); `meas` stands for MEAS_CAP 0b10. -/
inductive SpdmCap where
  | cert
  | chal
  | meas
  | encrypt
  | mac
  | mutAuth
  | keyEx
  | hbeat
  | keyUpd
  | encap
  deriving DecidableEq, Repr

/-- Responses over DOE (R390-R395). -/
inductive Doe where
  /-- The one version, a digit each of major and minor (R391). -/
  | version (v : Nat)
  /-- CTExponent and the capabilities set (R391, R392). -/
  | capabilities (ctExponent : Nat) (caps : List SpdmCap)
  | algorithms
  | error (code : Nat)
  | digests (slot0 : Bool)
  | certificate (slot0 : Bool)
  | challengeAuth (nonce : Nat)
  /-- Number of blocks, and of each block its index, its DMTF value type and its value (R384). -/
  | measurements (count : Nat) (blocks : List (Nat × Nat × List Byte)) (signed : Bool)
  /-- Session, whether mutual authentication is asked for, the heartbeat period in s (R393). -/
  | keyExchangeRsp (sess : Nat) (mutAuth : Bool) (heartbeat : Nat)
  | finishRsp (sess : Nat)
  | encapRequest (sess : Nat)
  | encapAck (sess : Nat)
  | heartbeatAck (sess : Nat)
  | keyUpdateAck (sess : Nat)
  | endSessionAck (sess : Nat)
  /-- Vendor ID, object type, next index. -/
  | discovery (vendor objType next : Nat)
  /-- A Genard response: CMD, RESULT, PART_ID, data (R394). -/
  | genard (cmd result partId : Nat) (data : List Byte)
  deriving DecidableEq, Repr

/-- What a JTAG TAP takes an instruction as (R379). -/
inductive Jtag where
  | idcode
  | bypass
  | other (ir : Nat)
  deriving DecidableEq, Repr

/-- One thing the block has sent out. -/
inductive Emission where
  | flit (d : Dev) (port : Nat) (f : Flit)
  /-- LM_OP, LM_ARG and AM_SEQ of an alignment marker, sent on all nine wavelengths (R405, R406). -/
  | marker (d : Dev) (port op arg seq : Nat)
  | received (d : Dev) (port : Nat) (p : Packet)
  | handed (eq src : Nat) (p : Packet)
  | msix (d : Dev) (v : Nat)
  | readData (d : Dev) (off size val : Nat)
  | readUnsupported (d : Dev) (off : Nat)
  | bar2Data (off : Nat) (bytes : List Byte)
  | bar2Abort (off : Nat)
  | dma (d : Dev) (addr : Nat) (bytes : List Byte)
  | ats (id pasid va : Nat)
  | pri (id pasid va : Nat) (rd wr : Bool)
  | invalidateDone (itag : Nat)
  | ucie (m : Ucie)
  | doe (d : Dev) (m : Doe)
  | smbus (d : Dev) (bytes : List Byte)
  | smbusNak (d : Dev)
  | jtag (d : Dev) (op : Jtag)
  deriving DecidableEq, Repr

/-! ## Blocks both parts hold -/

/-- What keeps a part from running after it has been released (R479, R480, R499, R511). -/
inductive Halt where
  | none
  | clockLost
  | waitPerst
  | safe
  deriving DecidableEq, Repr

/-- Start-up (R508, R509): which steps are behind the part. `perst`: PERST_N is asserted. `resetDue`: it was asserted while the clocks
stood (R481). `noRef`: REFCLK is absent. `uv` holds the reset of R495 or R496. -/
structure Boot where
  released : Bool
  perst    : Bool
  resetDue : Bool
  noRef    : Bool
  uv       : Bool
  romOk    : Bool
  fw       : Bool
  ident    : Bool
  started  : Bool
  halt     : Halt
  clockCause : Nat
  deriving DecidableEq, Repr

/-- An acknowledge waiting for MBOX_ACK (R455). -/
structure Ack where
  token : Nat
  msg   : Nat
  code  : Nat
  resp  : List Byte
  deriving DecidableEq, Repr

/-- The mailbox behind its registers (R455-R458). -/
structure Mbox where
  latched  : List Byte
  collided : Bool
  sentAt   : Nat
  taken    : List (List Byte)
  acks     : List Ack
  fwJob    : Option (List Byte)
  trace    : Bool
  deriving DecidableEq, Repr

/-- State of the other key slot (R323). -/
inductive OtherSlot where
  | empty
  | new
  | previous
  | retiring
  deriving DecidableEq, Repr

/-- A key slot's content: the tenant's KEY_ID, the key (zero at the end point, R397) and whether it was installed MASKED. -/
structure KeyVal where
  id     : Nat
  key    : BitVec 512
  masked : Bool
  deriving DecidableEq, Repr

/-- Key slots of one partition (R323, R396-R399). `lastOld` and `lastCur` are when a request was last accepted under the generation that is
not G, and under G (R327). -/
structure KeyEnt where
  used      : Bool
  g         : Nat
  cur       : Option KeyVal
  other     : OtherSlot
  otherKey  : Option KeyVal
  agent     : Option Digest
  flipAt    : Option Nat
  holdoff   : Option Nat
  lastOld   : Nat
  lastCur   : Nat
  deriving DecidableEq, Repr

/-- An SPDM session (R393). -/
structure Session where
  id      : Nat
  open_   : Bool
  agent   : Option Digest
  lastMsg : Nat
  deriving DecidableEq, Repr

/-- SPDM responder (R391, R393): whether algorithms are negotiated, the sessions, and the request answered ResponseNotReady. -/
structure Spdm where
  algs     : Bool
  sessions : List Session
  nextId   : Nat
  deferred : Option Instr
  deriving DecidableEq, Repr

/-- An outstanding TIME_SYNC (R489): SYNC_ID, T1 in 2^-16 ns, port, elapsed time of sending. -/
structure SyncOut where
  id   : Nat
  t1   : Nat
  port : Nat
  at_  : Nat
  deriving DecidableEq, Repr

/-- The time servo (R489): frequency trim in 2^-32 ns a cycle, length of the run of good exchanges (or Sync intervals) within 10 ns, when
the last one came, whether the source is lost, the port chosen under PORT 0x7F (R503). `missed` marks a Sync interval that went
beyond 10 ns. -/
structure Servo where
  trim     : Int
  goodRun  : Nat
  lastGood : Nat
  lost     : Bool
  missed   : Bool
  lastSync : Nat
  sync     : Option SyncOut
  nextId   : Nat
  chosen   : Option Nat
  deriving DecidableEq, Repr

/-- A DATA flit in the replay buffer (R47-R49). `cont` names partition and class of a packet that began in an earlier flit and goes on in
this one's first slot. -/
structure HeldFlit where
  lseq : Nat
  flit : Flit
  at_  : Nat
  cont : Option (Nat × Nat)
  deriving DecidableEq, Repr

/-- A packet being sent by a port: slots already sent, slots the port holds (all of them, unless the packet is still arriving, R270), the
stored copy it came from, and the tail-mark reason once it has been found bad (R271). -/
structure TxPkt where
  pkt  : Packet
  sent : Nat
  have_ : Nat
  copy : Option Nat
  bad  : Option Nat
  deriving DecidableEq, Repr

/-- A SUBST this port has sent (R421). -/
structure SubstOut where
  wl    : Nat
  amSeq : Nat
  at_   : Nat
  acked : Bool
  cause : Nat
  deriving DecidableEq, Repr

/-- The link layer and bring-up of one port (R47-R51, R269, R405, R410-R422). `cut` tells, once the packet in assembly has entered the
pipeline before its tail, which stored copies take the rest of it. `amSeq` is the partner's marker number noted at `amAt`, `txAm` the port's
own at `txAmAt`; `badMk` counts the failed markers in a row of each wavelength, `acted` is the AM_SEQ last acted on; `substPeer` holds the
wavelength and the low bits of the marker number of a SUBST the partner sent. -/
structure Port where
  rxLast    : Nat
  txNext    : Nat
  replay    : List HeldFlit
  timerAt   : Nat
  owedAck   : Bool
  owedNak   : Bool
  partnerAck : Nat
  credits   : Tbl Nat
  rxHeld    : Tbl Nat
  owedCr    : Tbl Nat
  asm       : List (BitVec 128)
  cut       : Option (List Nat)
  tx        : List TxPkt
  attemptAt : Nat
  waiting   : Bool
  planeBad  : Bool
  light     : Nat
  gotNode   : Bool
  gotPort   : Bool
  gotMap    : Bool
  qualified : Nat
  partnerMap : Nat
  txStripes : List Nat
  amSeq     : Nat
  amAt      : Nat
  txAm      : Nat
  txAmAt    : Nat
  badMk     : Tbl Nat
  acted     : Option Nat
  subst     : Option SubstOut
  substPeer : Option (Nat × Nat)
  substQ    : List Nat
  loopAt    : Option Nat
  masked    : Bool
  deriving DecidableEq, Repr

/-- Blocks both parts hold. `lvls` holds the levels of the buckets whose register field is narrower than THRESHOLD (R418, R419). -/
structure Core where
  regs    : Tbl W64
  lvls    : Tbl Nat
  now     : Nat
  tctr    : Nat
  boot    : Boot
  busMaster : Bool
  msixEn  : Bool
  pcieUp  : Bool
  mbox    : Mbox
  servo   : Servo
  ports   : Tbl Port
  dark    : Tbl Nat
  keys    : Tbl KeyEnt
  spdm    : Spdm
  idDigest : Option Digest
  certOk  : Bool
  fwDigest : Digest
  fwReg   : Digest
  fwStart : Nat
  deriving DecidableEq, Repr

/-! ## The home (both parts) -/

/-- A duplicate-suppression entry (R93): status once the request has one, the old value of a fetching atomic. -/
structure DsEnt where
  key    : StreamKey
  seq    : Nat
  op     : Nat
  status : Option Nat
  old    : List Byte
  at_    : Nat
  deriving DecidableEq, Repr

/-- A stream record (R78): the watermark, and the SEQs applied above it. -/
structure StreamRec where
  key     : StreamKey
  w       : Option Nat
  applied : List Nat
  deriving DecidableEq, Repr

/-- A topcoat held in the topcoat table (R79). `limit` is the time, in 64 ns units of the time counter, at which R62 ends it. -/
structure HeldTop where
  key   : StreamKey
  seq   : Nat
  pkt   : Packet
  port  : Nat
  limit : Nat
  deriving DecidableEq, Repr

/-- What a pending answer of the end point's home still does to the accelerator's memory when the accelerator has answered (R115):
nothing more (it has been done to these bytes), a read, a write, or a fetching atomic with its opcode, OPQ, size and operand. -/
inductive HomeOp where
  | done (off len : Nat)
  | read (off len : Nat)
  | write (off : Nat) (bytes : List Byte) (top : Bool)
  | rmw (off op opq size : Nat) (operand : List Byte)
  deriving DecidableEq, Repr

/-- A directory entry that a READ takes when it ends (R119): the line, the member, and the victim whose way it gets. -/
structure DirPlan where
  line   : Nat
  member : Nat
  victim : Option Nat
  deriving DecidableEq, Repr

/-- An accepted operation whose answer waits, for the accelerator (R115), for INVALIDATEs (R119, R120), or for both. `expire` is DEADLINE
plus L in 64 ns units; `own` names the end point's own request it answers (R145). -/
structure PendAns where
  id     : Nat
  key    : StreamKey
  seq    : Nat
  pkt    : Packet
  port   : Nat
  status : Nat
  data   : List Byte
  ucie   : Bool
  snoops : List Nat
  expire : Nat
  isLocal : Bool
  addDir : Option DirPlan
  own    : Option Nat
  hop    : HomeOp
  deriving DecidableEq, Repr

/-- A completion held for joining (R54). -/
structure JoinCpl where
  key      : StreamKey
  seq      : Nat
  count    : Nat
  status   : Nat
  tally    : Nat
  en       : Bool
  pkt      : Packet
  port     : Nat
  since    : Nat
  deriving DecidableEq, Repr

/-- The home agent's state (R61, R78, R79, R93). `waiting` holds the requests and local stores before the home, oldest first, that it does not
accept yet (R95, R119, R124, R373, R429). -/
structure Home where
  ds       : List DsEnt
  streams  : List StreamRec
  held     : List HeldTop
  pend     : List PendAns
  join     : List JoinCpl
  nextId   : Nat
  withheld : Bool
  snoopHeld : Bool
  waiting  : List Instr
  deriving DecidableEq, Repr

/-! ## The switch -/

/-- Where a stored packet's cells lie (R256, R257); a fragment of a retained chunk lies in reduction memory (R274). -/
inductive Reserve where
  | carve
  | answer
  | internal
  | refill
  | hbm
  | rmem
  deriving DecidableEq, Repr

/-- A stored packet (R254, R273): source, class, cells, slots that have arrived (R269), references, arrival stamp, the reason it was found
bad, the OPERATOR stage that asked for its capture (R253), and by egress the depth of the VOQ before it (R297). -/
structure Copy where
  id    : Nat
  pkt   : Packet
  src   : Nat
  qset  : Nat
  part  : Nat
  cells : Nat
  refs  : Nat
  have_ : Nat
  stamp : Nat
  where_ : Reserve
  bad   : Option Nat
  asked : Option Nat
  depths : Tbl Nat
  deriving DecidableEq, Repr

/-- A virtual output queue (R259): the stored copies it holds, oldest first, and the average of R276 in 1/256 cell. -/
structure Voq where
  key  : VoqKey
  ents : List Nat
  avg  : Nat
  deriving DecidableEq, Repr

/-- A token bucket: level in 1/80 byte, which is what 100 Mb/s brings in 1 ns, and the elapsed time of its last update. -/
structure Tokens where
  lvl : Nat
  at_ : Nat
  deriving DecidableEq, Repr

/-- A policer's two buckets (R252). -/
structure Policer where
  c : Tokens
  p : Tokens
  deriving DecidableEq, Repr

/-- Arbiter of one egress (R262): deficits by group 8 × QSET + TC, the group whose turn it is, the next source of each group. -/
structure Arb where
  deficit : Tbl Nat
  turn    : Nat
  fresh   : Bool
  nextSrc : Tbl Nat
  calSlot : Nat
  deriving DecidableEq, Repr

/-- Gathering of one (port, class) for the congestion map (R295): the depth with its largest value and its samples, the marks, and how long
the port has held a packet of the class without the credits to start it (`lack`, since `lackAt`, `lackNs` before). -/
structure CmapAcc where
  depth   : Nat
  maxD    : Nat
  sum     : Nat
  samples : Nat
  lastAt  : Nat
  marks   : Nat
  lack    : Bool
  lackAt  : Nat
  lackNs  : Nat
  deriving DecidableEq, Repr

/-- Nothing gathered. -/
def CmapAcc.zero : CmapAcc := { depth := 0, maxD := 0, sum := 0, samples := 0, lastAt := 0, marks := 0, lack := false, lackAt := 0, lackNs := 0 }

/-- A sample waiting for the management processor (R301, R302); `open_` names the ingress port while the frame's payload still arrives. -/
structure Sample where
  bytes : List Byte
  cells : Nat
  open_ : Option Nat
  deriving DecidableEq, Repr

/-- A packet held in the pipeline lane of its ingress port, with the status of the answer it waits to be given (R249); none for a packet
behind it. -/
structure LaneEnt where
  pkt    : Packet
  status : Option Nat
  deriving DecidableEq, Repr

/-- A packet of an internal source that waits for cells of the source's reserve (R257), with its egresses. -/
structure IntWait where
  src   : Nat
  pkt   : Packet
  eqs   : List Nat
  cells : Nat
  deriving DecidableEq, Repr

/-- A fabric-memory line (R316, R317): its data, the key it is encrypted under, and its sideband. -/
structure Line where
  init : Bool
  gen  : Nat
  key  : BitVec 512
  data : List Byte
  deriving DecidableEq, Repr

/-- What an unlisted line is: INIT, which reads as zeros (R318). -/
def Line.unlisted : Line := { init := true, gen := 0, key := 0, data := [] }

/-- A row of a bank of a pseudo-channel (R331). -/
structure RowId where
  pc   : Nat
  bank : Nat
  row  : Nat
  deriving DecidableEq, Repr

/-- The owner record (R388). -/
structure Owner where
  keyDigest : Digest
  modulus   : List Byte
  minSvn    : Nat
  serial    : Nat
  deriving DecidableEq, Repr

/-- A lath load in progress (R356, R363): its message, the image once its tables are written; for a partial image, from step 1 on (R365), the target
with its local index and the range of collective slots it gives the target (first slot and number); the owner record when it began (R389), and
the windows being cleared. -/
structure LathJob where
  msg      : List Byte
  owner    : Option Owner
  image    : Option (List Byte)
  partial_ : Bool
  target   : Nat
  idx      : Nat
  newSlots : Nat × Nat
  cleared  : List Nat
  deriving DecidableEq, Repr

/-- An entry of the lath log (R387). -/
structure LathLogEnt where
  imageId : Nat
  baseId  : Nat
  kind    : Nat
  svn     : Nat
  time    : Nat
  d       : Digest
  deriving DecidableEq, Repr

/-- The lath loader and what an image sets that no register shows: rule lists, which profiles records have given. `owner` is the record in
force, `flashOwner` the one SPI flash holds, `clearing` the pseudo-channel groups being cleared (R380). -/
structure Lath where
  job       : Option LathJob
  heldMsg   : Option (List Byte)
  opRules   : Tbl (BitVec 256)
  mirror    : Tbl (BitVec 256)
  reg       : Digest
  log       : List LathLogEnt
  first     : Nat
  baseVal   : Digest
  owner     : Option Owner
  flashOwner : Option Owner
  clearing  : List Nat
  redGiven  : List Nat
  markGiven : List Nat
  deriving DecidableEq, Repr

/-- What one leg has sent of one chunk (R228): fragments recorded by part (part 0 for a member leg), the time-counter value at
which it became complete, the elapsed time of its last fragment. -/
structure LegRec where
  frags  : Tbl Nat
  doneAt : Option Nat
  lastAt : Nat
  deriving DecidableEq, Repr

/-- A rounded chunk kept for its members (R177): the bytes and the COMP_STATUS. -/
structure Retained where
  bytes  : List Byte
  status : Nat
  sentAt : Nat
  deriving DecidableEq, Repr

/-- A chunk block of a slot (R214, R228, R231). -/
structure Block where
  chunk   : Nat
  acc     : Tbl Int
  tagSum  : Nat
  legs    : Tbl LegRec
  result  : Option Retained
  deriving DecidableEq, Repr

/-- A collective slot behind its registers (chapter 07). Legs are known by their entry in the leg table; `expGot` holds, by leg, the
exponent packets received, `acks`, by chunk, the legs that have acknowledged it, `fwd` the chunks forwarded below the root, `ackUp` those
acknowledged upward, `sentAt` the times of the messages that are sent again every T_R (0 READY, 1 exponents, 2 FREED, 3 CLOSE, 4 DONE), `low`
F. -/
structure Slot where
  readyLegs : List Nat
  readyUp   : Bool
  joined    : List Nat
  expGot    : Tbl Nat
  exps      : Tbl Nat
  expUp     : Bool
  screed    : Bool
  blocks    : List Block
  resets    : Tbl Nat
  fwd       : List Nat
  acks      : Tbl (List Nat)
  ackUp     : List Nat
  closeAcks : List Nat
  closeUp   : Bool
  doneAcks  : List Nat
  doneUp    : Bool
  progressAt : Nat
  closeAt   : Option Nat
  doneAt    : Option Nat
  sentAt    : Tbl Nat
  reserved  : Nat
  order     : Nat
  low       : Nat
  deriving DecidableEq, Repr

/-- Patching (R429-R433): triggers in order, the tile being patched, whether it has moved, since when, its ports that return to
RETIRED, the failed positions held in SPI flash, and the number of its error record. -/
structure Patch where
  queue  : List Nat
  active : Option Nat
  moved  : Bool
  at_    : Nat
  keep   : List Nat
  flash  : List Nat
  recNo  : Nat
  deriving DecidableEq, Repr

/-- Holds (R493, R494, R499): the causes in force (1 SUPPLY, 2 POWER, 3 THERMAL), when the hold began, when the input last rose
above the clearing threshold, and the least VIN seen. -/
structure Hold where
  causes  : List Nat
  began   : Nat
  riseAt  : Option Nat
  minVin  : Nat
  deriving DecidableEq, Repr

/-- State of the switch that no register shows. `powers` holds the last hundred 1 ms means of the input power, newest first, `thrAt` when
the throttle step was last computed, `thrNo` the number of the last 100 ms boundary (R498, R505). `lanes` holds what waits in each ingress
lane (R249), `intWait` what waits for an internal reserve (R257), `rand` how many values each QSET's generator has given (R276); `cmapFrom`
and `cmapLen` are the start and the length in µs of the congestion-map interval in progress (R294); `bufCe` and `accCe` count the errors
the ECC of the packet buffer and of reduction memory corrected (R254, R177; no register shows them). `scrubbed` lists the lines the scrub
has visited in the pass in progress (R331), `waiting` what waits for a home-agent engine or the reduction complex to take it (R373,
R429), in order. -/
structure Sw where
  copies   : List Copy
  voqs     : List Voq
  nextCopy : Nat
  cells    : Tbl Nat
  ansCells : Tbl Nat
  intCells : Tbl Nat
  refillCells : Nat
  sampleCells : Nat
  spills   : List (Nat × VoqKey)
  policers : Tbl Policer
  strict   : Tbl Tokens
  arbs     : Tbl Arb
  cmap     : Tbl CmapAcc
  cmapAt   : Nat
  util     : Tbl Nat
  sampCnt  : Tbl Nat
  samples  : List Sample
  ssSeq    : Nat
  swatch   : Tbl (List Byte)
  swLvl    : Nat
  swAt     : Nat
  badLines : List Nat
  ceLines  : List Nat
  ueRows   : List Nat
  remapped : List RowId
  scrubbed : List Nat
  home     : Home
  lath     : Lath
  slots    : Tbl Slot
  admits   : Nat
  engLvl   : Tbl Nat
  pcLvl    : Tbl Nat
  patch    : Patch
  hold     : Hold
  drain    : List (BucketId × Nat)
  powers   : List Nat
  thrAt    : Nat
  thrNo    : Nat
  mgmtDrop : Nat
  lanes    : Tbl (List LaneEnt)
  intWait  : List IntWait
  rand     : Tbl Nat
  cmapFrom : Nat
  cmapLen  : Nat
  bufCe    : Nat
  accCe    : Nat
  waiting  : List Instr
  deriving DecidableEq, Repr

/-! ## The end point -/

/-- A granted window of a context (R130, R132), in granules of 4 KiB. -/
structure Win where
  nodeLo : Nat
  nodeHi : Nat
  base   : Nat
  limit  : Nat
  deriving DecidableEq, Repr

/-- The end point's own copy of a context descriptor (R130). -/
structure CtxDesc where
  tagQuota    : Nat
  fcEn        : Bool
  planeMask   : Nat
  pasid       : Nat
  partition   : Nat
  streamQuota : Nat
  ringSize    : Nat
  engineMask  : Nat
  ringOff     : Nat
  windows     : List Win
  deriving DecidableEq, Repr

/-- What a request is sent for. -/
inductive Purpose where
  /-- A direct load: engine, first byte wanted within what is read, its size, whether the READ fills the far cache (R98). -/
  | load (eng skip size : Nat) (fill : Bool)
  /-- A part of direct store number `sid` (R66, R67). -/
  | store (eng sid : Nat)
  | atomic (eng : Nat)
  | acqLoad (eng : Nat) (scope : Scope) (range : AcqRange)
  | relStore (eng : Nat)
  | relAtomic (eng : Nat)
  /-- A request of the descriptor at ring index `ring` (R149). -/
  | prog (ring : Nat)
  /-- A source READ feeding the write `wid` of the descriptor at `ring` (R144). -/
  | copyRead (ring wid skip : Nat)
  deriving DecidableEq, Repr

/-- A request: waiting to be sent, or sent and without an outcome (R27, R59, R60). `order` is its place among the requests of its context,
`issued` its place in the order of sending (R106), `ext` the extent its address was translated under: page address and size (R154). -/
structure Req where
  id      : Nat
  ctx     : Nat
  why     : Purpose
  op      : Nat
  tc      : Nat
  va      : Option Nat
  wr      : Bool
  rd      : Bool
  node    : Nat
  off     : Nat
  opq     : Nat
  rdBytes : Nat
  payload : List Byte
  long    : Bool
  cplEn   : Bool
  tally   : Nat
  feeds   : List Nat
  got     : List (Nat × List Byte)
  sent    : Bool
  epoch   : Nat
  seq     : Nat
  order   : Nat
  tag     : Option Nat
  tagGen  : Nat
  keyGen  : Nat
  plane   : Nat
  first   : Nat
  life    : Nat
  retry   : Nat
  checkBad : Bool
  counted : Bool
  noInstall : Bool
  ext     : Option (Nat × Nat)
  issued  : Nat
  size_   : Nat
  deriving DecidableEq, Repr

/-- A stream entry of the end point (R138, R280). `out` holds the outstanding SEQs, `fails` the failing SEQs with their status. -/
structure Stream where
  key    : StreamKey
  next   : Nat
  out    : List Nat
  tops   : Nat
  fails  : List (Nat × Nat)
  cw     : Nat
  units  : Nat
  lastDec : Nat
  lastInc : Nat
  deriving DecidableEq, Repr

/-- A translation extent of an address of a descriptor (R152): SRC or DST, the page, its fabric address, when it was translated; a fault found
there is held with its COMP_STATUS, its cause and the time it was found. `at_` is its place among translations and invalidations (R154). -/
structure Extent where
  dst    : Bool
  va     : Nat
  size   : Nat
  fabric : Nat
  at_    : Nat
  fault  : Option (Nat × Nat × Nat)
  deriving DecidableEq, Repr

/-- A descriptor copied on chip (R141): its ring index and quadwords, whether it has begun issuing, how many of its writes have been
neither issued nor ended, bytes issued since the engine took it (R142), the extents of its addresses. -/
structure ProgDesc where
  ring   : Nat
  qs     : List Nat
  begun  : Bool
  left   : Nat
  bytes  : Nat
  ext    : List Extent
  deriving DecidableEq, Repr

/-- A fault record's content (R158). -/
structure FaultRec where
  va     : Nat
  pasid  : Nat
  cause  : Nat
  status : Nat
  access : Nat
  source : Nat
  epoch  : Nat
  ctx    : Nat
  ring   : Nat
  time   : Nat
  deriving DecidableEq, Repr

/-- A fault record held by a PARKED context (R160): the state it parked in, and the direct access held, if one faulted. -/
structure Parked where
  record : FaultRec
  prev   : Nat
  direct : Option Nat
  deriving DecidableEq, Repr

/-- A context (R129-R165). `firstFail` is the earliest-issued request of the epoch that did not complete with OK, with its status
(R106); `planeWait` the plane whose credits its next packet waits for (R140). -/
structure Ctx where
  desc      : Option CtxDesc
  lastEpoch : Option Nat
  epochSent : Tbl Nat
  newDesc   : Option CtxDesc
  saved     : Bool
  prog      : List ProgDesc
  faulted   : Option FaultRec
  parked    : Option Parked
  firstFail : Option (Nat × Nat)
  heldDirect : List Req
  plane     : Nat
  planeWait : Option Nat
  engine    : Option Nat
  stop      : Nat
  abortWhy  : Nat
  deriving DecidableEq, Repr

/-- A response tag that is not free and fresh: its generation, whether a request holds it, whether it is quarantined (R91,
R165). -/
structure TagEnt where
  gen    : Nat
  busy   : Bool
  ctx    : Nat
  freeAt : Option Nat
  orphan : Bool
  deriving DecidableEq, Repr

/-- A far-cache line (R97). -/
structure FcLine where
  node : Nat
  line : Nat
  part : Nat
  gen  : Nat
  data : List Byte
  deriving DecidableEq, Repr

/-- A translation (R152): page, fabric address, permissions, when it was made. -/
structure Xlat where
  pasid  : Nat
  va     : Nat
  size   : Nat
  fabric : Nat
  rd     : Bool
  wr     : Bool
  at_    : Nat
  deriving DecidableEq, Repr

/-- An ATS or PRI request outstanding (R153). `phase` 0: first ATS, 1: PRI, 2: ATS after a Success. `req` is the direct access it
is sent for, 0 for the addresses of descriptors; `stale` marks one overtaken by an invalidation (R154). -/
structure AtsReq where
  id    : Nat
  ctx   : Nat
  pasid : Nat
  va    : Nat
  rd    : Bool
  wr    : Bool
  phase : Nat
  at_   : Nat
  req   : Nat
  stale : Bool
  deriving DecidableEq, Repr

/-- An entry of the invalidation filter (R154); `at_` is its place among translations and invalidations. -/
structure InvFilter where
  pasid : Nat
  va    : Nat
  size  : Nat
  at_   : Nat
  deriving DecidableEq, Repr

/-- An invalidation not yet completed (R154-R156). -/
structure InvReq where
  itag    : Nat
  at_     : Nat
  counted : List Nat
  deriving DecidableEq, Repr

/-- A release that waits (R106): its place in the order of arrival, what it still covers, the earliest-issued covered request that did not
complete with OK, the flag (address, bytes) or the atomic (address, opcode, OPQ, operand) it sends; or an ACQUIRE behind a waiting release of
its engine, with its scope and range. -/
structure Rel where
  id      : Nat
  ctx     : Nat
  eng     : Nat
  covers  : List Nat
  fail    : Option (Nat × Nat)
  flag    : Option (Nat × List Byte)
  atomic  : Option (Nat × Nat × Nat × List Byte)
  acq     : Option (Scope × AcqRange)
  deriving DecidableEq, Repr

/-- A direct store in progress (R67): how many of its requests lack an outcome. -/
structure StoreRec where
  id   : Nat
  ctx  : Nat
  left : Nat
  deriving DecidableEq, Repr

/-- A directory entry (R119): the line and its presence bits. -/
structure DirEnt where
  line : Nat
  bits : Nat
  deriving DecidableEq, Repr

/-- An INVALIDATE without its INV_ACK (R120, R124); `out` once it has been sent. -/
structure Snoop where
  id     : Nat
  member : Nat
  node   : Nat
  line   : Nat
  lines  : Nat
  part   : Nat
  sentAt : Nat
  out    : Bool
  deriving DecidableEq, Repr

/-- What a member learns from JOIN_REPLY (R222). -/
structure CollParams where
  nchunks   : Nat
  exp       : Bool
  lastUnits : Nat
  win       : Nat
  timeout   : Nat
  deriving DecidableEq, Repr

/-- One CONTRIB of a collective entry (R218). -/
structure ContribRec where
  first  : Nat
  count  : Nat
  src    : Nat
  dst    : Nat
  len    : Nat
  cplEn  : Bool
  tally  : Nat
  dtype  : Nat
  deriving DecidableEq, Repr

/-- One chunk at a member (R232, R234): whether it was sent, the fragments written, the STATUS its fragments carry, the accesses of the
home that write them with their fragments, fragments that wait for a translation, its status once fixed, NACKs sent, the moment from which T_R
runs for the next one, whether credited, whether its source could not be read. -/
structure MemChunk where
  sent     : Bool
  mask     : Nat
  carried  : Nat
  writes   : List (Nat × Nat)
  held     : List (Nat × List Byte)
  status   : Option Nat
  nacks    : Nat
  nackFrom : Option Nat
  credited : Bool
  unread   : Bool
  deriving DecidableEq, Repr

/-- A collective entry of the end point (R219): `screed` holds Q, W and DTYPE, `unround` and `unroundFrom` what CLOSE named, `toSend` the
chunks in the window with the next fragment, `recon` the fragments asked for while the context was not resident. -/
structure CollEnt where
  id      : Nat
  ctx     : Nat
  plane   : Nat
  collId  : Nat
  member  : Nat
  code    : Nat
  params  : Option CollParams
  screed  : Option (Int × Nat × Nat)
  fm      : Nat
  closed  : Bool
  descs   : List ContribRec
  chunks  : Tbl MemChunk
  unround : List Nat
  unroundFrom : Nat
  toSend  : List (Nat × Nat)
  recon   : Tbl Nat
  nextChunk : Nat
  lastPkt : Nat
  resendAt : Nat
  deriving DecidableEq, Repr

/-- A collective whose context was aborted (R167): its results are discarded without an answer. -/
structure GoneColl where
  ctx    : Nat
  plane  : Nat
  collId : Nat
  part   : Nat
  deriving DecidableEq, Repr

/-- A collective packet held until its partition has a current key (R222). -/
structure HeldColl where
  plane : Nat
  pkt   : Packet
  deriving DecidableEq, Repr

/-- State of the end point that no register shows. `tagWait` holds the contexts stalled for a response tag and `tagTurn` the context that
took one last (R89); `fcUe` counts the far-cache lines that failed their check (R100), `storeLog` the local stores that timed out: offset,
length, time (R125; no register shows either); `lockParts` the partitions that keep LOCK set (R380). -/
structure Ep where
  node    : Nat
  ctxs    : Tbl Ctx
  reqs    : List Req
  nextReq : Nat
  streams : List Stream
  tags    : Tbl TagEnt
  stores  : List StoreRec
  rels    : List Rel
  fc      : List FcLine
  atc     : List Xlat
  ats     : List AtsReq
  nextAts : Nat
  filter  : List InvFilter
  invs    : List InvReq
  home    : Home
  badMem  : List Nat
  dir     : List DirEnt
  snoops  : List Snoop
  nextSnoop : Nat
  snoopUse : Tbl Nat
  colls   : List CollEnt
  nextColl : Nat
  gone    : List GoneColl
  collHeld : List HeldColl
  ucie    : List Nat
  trained : Bool
  engCtx  : Tbl Nat
  dgPlane : Tbl Nat
  drain   : List (BucketId × Nat)
  tagWait : List Nat
  tagTurn : Nat
  fcUe    : Nat
  storeLog : List (Nat × Nat × Nat)
  lockParts : List Nat
  deriving DecidableEq, Repr

/-! ## The whole block -/

/-- Why a command stops the machine. -/
inductive Fault where
  /-- Raised by a command whose operand names a unit the part does not have (port 80, tile 30): the spec describes no such
  event. Safe: the machine stops where nothing could happen. -/
  | noSuchUnit
  deriving DecidableEq, Repr

/-- Why a command has no meaning. -/
inductive Refusal where
  /-- Raised by an arm of `exec` whose command has not been given its meaning. Safe. -/
  | notModelled (mnemonic : String)
  deriving DecidableEq, Repr

/-- Everything the block holds but the two memories: the blocks of both parts, the switch's and the end point's own, what has
been sent (newest first), and the model's counter behind its free values (log 9). -/
structure Blk where
  swc     : Core
  epc     : Core
  sw      : Sw
  ep      : Ep
  out     : List Emission
  free    : Nat
  deriving DecidableEq, Repr

/-- The state: the block, the switch's fabric memory by line number (R316; an unlisted line is INIT), the accelerator's memory
by byte (an unlisted byte reads 0, log 8), and the commands that wait. -/
structure State where
  b       : Blk
  fmem    : Tbl Line
  mem     : Tbl Byte
  pending : List Instr
  deriving DecidableEq, Repr

/-! ## Reset -/

def Boot.off : Boot :=
  { released := false, perst := true, resetDue := false, noRef := false, uv := false, romOk := false, fw := false, ident := false, started := false, halt := .none, clockCause := 0 }

def Mbox.empty : Mbox :=
  { latched := [], collided := false, sentAt := 0, taken := [], acks := [], fwJob := none, trace := false }

def Spdm.idle : Spdm := { algs := false, sessions := [], nextId := 1, deferred := none }

def Servo.idle : Servo :=
  { trim := 0, goodRun := 0, lastGood := 0, lost := false, missed := false, lastSync := 0, sync := none, nextId := 0, chosen := none }

/-- Offset of CPT_STATUS on both parts (R500). -/
def offCptStatus : Nat := 0x20000

/-- A part held by PERST_N, its power applied: RESET_CAUSE reads POWER_ON (R500). -/
def Core.reset : Core :=
  { regs := [(offCptStatus, 0x1000000000000000#64)], lvls := [], now := 0, tctr := 0, boot := Boot.off, busMaster := false, msixEn := false,
    pcieUp := false, mbox := Mbox.empty, servo := Servo.idle, ports := [], dark := [], keys := [], spdm := Spdm.idle,
    idDigest := none, certOk := false, fwDigest := 0, fwReg := 0, fwStart := 0 }

def Home.empty : Home :=
  { ds := [], streams := [], held := [], pend := [], join := [], nextId := 0, withheld := false, snoopHeld := false, waiting := [] }

def Lath.empty : Lath :=
  { job := none, heldMsg := none, opRules := [], mirror := [], reg := 0, log := [], first := 0, baseVal := 0, owner := none,
    flashOwner := none, clearing := [], redGiven := [], markGiven := [] }

def Hold.none : Hold :=
  { causes := [], began := 0, riseAt := Option.none, minVin := 0 }

def Sw.reset : Sw :=
  { copies := [], voqs := [], nextCopy := 0, cells := [], ansCells := [], intCells := [], refillCells := 0, sampleCells := 0,
    spills := [], policers := [], strict := [], arbs := [], cmap := [], cmapAt := 0, util := [], sampCnt := [], samples := [],
    ssSeq := 0, swatch := [], swLvl := 0, swAt := 0, badLines := [], ceLines := [], ueRows := [], remapped := [], scrubbed := [],
    home := Home.empty, lath := Lath.empty, slots := [], admits := 0, engLvl := [], pcLvl := [],
    patch := { queue := [], active := none, moved := false, at_ := 0, keep := [], flash := [], recNo := 0 }, hold := Hold.none,
    drain := [], powers := [], thrAt := 0, thrNo := 0, mgmtDrop := 0, lanes := [], intWait := [], rand := [], cmapFrom := 0,
    cmapLen := 0, bufCe := 0, accCe := 0, waiting := [] }

def Ep.reset : Ep :=
  { node := 0, ctxs := [], reqs := [], nextReq := 1, streams := [], tags := [], stores := [], rels := [], fc := [], atc := [],
    ats := [], nextAts := 0, filter := [], invs := [], home := Home.empty, badMem := [], dir := [], snoops := [], nextSnoop := 0,
    snoopUse := [], colls := [], nextColl := 0, gone := [], collHeld := [], ucie := [], trained := false, engCtx := [], dgPlane := [],
    drain := [], tagWait := [], tagTurn := 0, fcUe := 0, storeLog := [], lockParts := [] }

/-- The machine with its power applied and PERST_N still asserted on both parts (R7, R508, R509): every register at the reset
value of its rule, nothing sent, nothing waiting. Values the spec does not give are those of logs 3 to 9. -/
def State.reset : State :=
  { b := { swc := Core.reset, epc := Core.reset, sw := Sw.reset, ep := Ep.reset, out := [], free := 0 },
    fmem := [], mem := [], pending := [] }

end Sys2Proof.Machine
end

