-- ==== Sys2Proof/Machine/Bits.lean ====
section
/-! DEFINITION. Bit fields, byte order, saturation, checks and tables: the helpers every other file uses. -/

namespace Sys2Proof.Machine

open Sys2Proof

/-! ## Fields -/

/-- Bits [hi:lo] of a natural (R3). -/
def bits (x hi lo : Nat) : Nat := (x >>> lo) % 2 ^ (hi + 1 - lo)

/-- Bit n of a natural. -/
def bitOf (x n : Nat) : Bool := (x >>> n) % 2 == 1

/-- Bits [hi:lo] of a natural replaced. -/
def putBits (x hi lo v : Nat) : Nat :=
  (x >>> (hi + 1)) <<< (hi + 1) + (v % 2 ^ (hi + 1 - lo)) <<< lo + x % 2 ^ lo

/-- Bits [hi:lo] of a register. -/
def getF (w : W64) (hi lo : Nat) : Nat := bits w.toNat hi lo

/-- A register with bits [hi:lo] replaced. -/
def setF (w : W64) (hi lo v : Nat) : W64 := BitVec.ofNat 64 (putBits w.toNat hi lo v)

/-- A bit as a number. -/
def b2n (b : Bool) : Nat := if b then 1 else 0

/-- Fields written one after the other, most significant first (R3): each is (width, value). -/
def packBits : List (Nat × Nat) → Nat
  | [] => 0
  | (w, v) :: r => (v % 2 ^ w) * 2 ^ ((r.map Prod.fst).foldl (· + ·) 0) + packBits r

/-- The two's complement value of the low n bits. -/
def toSigned (n x : Nat) : Int :=
  let v := x % 2 ^ n
  if v < 2 ^ (n - 1) then (v : Int) else (v : Int) - (2 ^ n : Nat)

/-- The n-bit two's complement encoding of an integer. -/
def ofSigned (n : Nat) (x : Int) : Nat := (x % ((2 ^ n : Nat) : Int)).toNat

/-- A count that saturates at the largest value of n bits. -/
def satAdd (n x d : Nat) : Nat := min (x + d) (2 ^ n - 1)

/-! ## Bytes -/

/-- The n bytes of x, least significant first. -/
def leBytes : Nat → Nat → List Byte
  | 0, _ => []
  | n + 1, x => BitVec.ofNat 8 x :: leBytes n (x / 256)

/-- The value of bytes, least significant first. -/
def leNat : List Byte → Nat
  | [] => 0
  | b :: r => b.toNat + 256 * leNat r

/-- The n bytes of x, most significant first. -/
def beBytes (n x : Nat) : List Byte := (leBytes n x).reverse

/-- The value of bytes, most significant first. -/
def beNat (l : List Byte) : Nat := leNat l.reverse

/-- n bytes of a list from an offset; bytes past its end are 0. -/
def slice (l : List Byte) (off n : Nat) : List Byte := ((l.drop off).take n ++ List.replicate n 0#8).take n

/-- A little-endian field of n bytes at an offset. -/
def leAt (l : List Byte) (off n : Nat) : Nat := leNat (slice l off n)

/-- A list cut or padded with zeros to n bytes. -/
def padTo (n : Nat) (l : List Byte) : List Byte := (l ++ List.replicate n 0#8).take n

/-- `new` laid over `old` at an offset. -/
def overlay (old : List Byte) (off : Nat) (new : List Byte) : List Byte :=
  old.take off ++ new ++ old.drop (off + new.length)

def zeros (n : Nat) : List Byte := List.replicate n 0#8

/-! ## Cyclic checks (R41, R44, R46) -/

/-- One bit of a cyclic check of width w with polynomial p, most significant bit first. -/
def crcBit (w p c : Nat) (bit : Bool) : Nat :=
  let top := (c >>> (w - 1)) % 2 == 1
  let c' := (c * 2) % 2 ^ w
  if top != bit then c' ^^^ p else c'

/-- The bits of a byte, most significant first. -/
def byteBits (b : Byte) : List Bool :=
  [b.getLsbD 7, b.getLsbD 6, b.getLsbD 5, b.getLsbD 4, b.getLsbD 3, b.getLsbD 2, b.getLsbD 1, b.getLsbD 0]

/-- A cyclic check over bytes: initial value all ones, result inverted, nothing reflected. -/
def crc (w p : Nat) (l : List Byte) : Nat :=
  (2 ^ w - 1) ^^^ (l.foldl (fun c b => (byteBits b).foldl (crcBit w p) c) (2 ^ w - 1))

/-! ## Tables

A table lists entries by rising number and leaves out every entry equal to its default, so that equal tables are equal data. -/

/-- The entry of a number, or the default. -/
def Tbl.get {α : Type} (t : Tbl α) (k : Nat) (d : α) : α :=
  match t with
  | [] => d
  | (j, v) :: r => if j == k then v else Tbl.get r k d

/-- A table without the entry of a number. -/
def Tbl.erase {α : Type} (t : Tbl α) (k : Nat) : Tbl α := t.filter (fun e => !(e.1 == k))

/-- A table with an entry inserted at its place. -/
def Tbl.insert {α : Type} (t : Tbl α) (k : Nat) (v : α) : Tbl α :=
  match t with
  | [] => [(k, v)]
  | (j, w) :: r => if k < j then (k, v) :: (j, w) :: r else if k == j then (k, v) :: r else (j, w) :: Tbl.insert r k v

/-- A table with the entry of a number set; setting the default removes it. -/
def Tbl.set {α : Type} [DecidableEq α] (t : Tbl α) (k : Nat) (v d : α) : Tbl α :=
  if v = d then t.erase k else t.insert k v

/-- The entry of a number, if listed. -/
def Tbl.find {α : Type} (t : Tbl α) (k : Nat) : Option α :=
  match t with
  | [] => none
  | (j, v) :: r => if j == k then some v else Tbl.find r k

/-- Numbers strictly rising and above a bound. -/
def Tbl.above {α : Type} (lo : Nat) : Tbl α → Bool
  | [] => true
  | (k, _) :: r => decide (lo < k) && Tbl.above k r

/-- The canonical form: numbers strictly rising, no entry equal to the default. -/
def Tbl.wf {α : Type} [DecidableEq α] (t : Tbl α) (d : α) : Bool :=
  (match t with
   | [] => true
   | (k, _) :: r => Tbl.above k r) && t.all (fun e => !(decide (e.2 = d)))

/-- The numbers from 0 below n. -/
def upto (n : Nat) : List Nat := List.range n

/-- Append a number a list does not hold. -/
def addNew (l : List Nat) (x : Nat) : List Nat := if l.contains x then l else l ++ [x]

/-- The list without one number. -/
def without (l : List Nat) (x : Nat) : List Nat := l.filter (fun y => !(y == x))

/-- The first entry a test accepts replaced by a function of it. -/
def mapFirst {α : Type} (p : α → Bool) (f : α → α) : List α → List α
  | [] => []
  | x :: r => if p x then f x :: r else x :: mapFirst p f r

end Sys2Proof.Machine
end

