-- ==== Sys2Proof/Machine/RegMap.lean ====
section
/-! DEFINITION. The register map of both parts: where each BAR0 register sits, its fields, their access types, reset values and
legal encodings, as the register tables of the spec give them (R443, R444 and the rules named beside each table). -/

namespace Sys2Proof.Machine

open Sys2Proof

/-- Access types (R6). -/
inductive Acc where
  | ro
  | rw
  | w1c
  | wo
  | rc
  deriving DecidableEq, Repr

/-- A field: bits [hi:lo], access type, reset value, and the ranges of values that are no reserved encodings (none listed: every
value is legal). `sticky` marks an "(S)" field (R7). -/
structure Fld where
  hi : Nat
  lo : Nat
  acc : Acc
  reset : Nat := 0
  legal : List (Nat × Nat) := []
  sticky : Bool := false
  deriving DecidableEq, Repr

/-- Whether a value is no reserved encoding of a field (R9). -/
def Fld.allows (f : Fld) (v : Nat) : Bool := f.legal.isEmpty || f.legal.any (fun r => decide (r.1 ≤ v) && decide (v ≤ r.2))

/-! ## Offsets -/

def offId : Nat := 0x0
def offStatus : Nat := 0x8
def offCtl : Nat := 0x10
def offRefused : Nat := 0x18
def offPartAbort : Nat := 0x20
def offAbortCfg : Nat := 0x28
def offErrPtr : Nat := 0x100
def offErrLog : Nat := 0x1000
def offMsixTable : Nat := 0x8000
def offMsixPba : Nat := 0x9000
def offMboxData : Nat := 0x10000
def offMboxCtl : Nat := 0x10040
def offMboxAck : Nat := 0x10048
def offMboxResp : Nat := 0x10050
def offDbStatus : Nat := 0x10080
def offDbMask : Nat := 0x10088
def offCptEvent : Nat := 0x20008
def offTimeNs : Nat := 0x20010
def offTimeFrac : Nat := 0x20018
def offTimeCtl : Nat := 0x20020
def offTimeStatus : Nat := 0x20028
def offPwrStatus : Nat := 0x20030
def offPwrCtl : Nat := 0x20038
def offHoldLog : Nat := 0x20040
def offSecState : Nat := 0x30000
def offSecFlush : Nat := 0x30010
def offSchedPtr : Nat := 0x30040
def offSched : Nat := 0x31000
def offLathStatus : Nat := 0x40000
def offLathId : Nat := 0x40008
def offLathInfo : Nat := 0x40010
def offLathGlobal : Nat := 0x40018
def offFqBase : Nat := 0x40000
def offFqPtr : Nat := 0x40008
def offFqStatus : Nat := 0x40010
def offFqResume : Nat := 0x40018
def offCtxTable : Nat := 0x40020
def offPbuf : Nat := 0x250000
def offPatchStatus : Nat := 0x251000
def offPatchCtl : Nat := 0x251008
def offExpSel : Nat := 0x310000
def offExpData : Nat := 0x310008
def offRengLo : Nat := 0x310100
def offRengHi : Nat := 0x310108
def offCollPend (k : Nat) : Nat := 0x310200 + 8 * k
def offHbmCarve : Nat := 0x400000
def offHbmStatus : Nat := 0x400008
def offHbmErr : Nat := 0x400010
def offBar2Sel : Nat := 0x400020
def offBar2Stat : Nat := 0x400028
def offSweepRate : Nat := 0x400030
def offSwHomeStat : Nat := 0x400038
def offUe (n : Nat) : Nat := 0x400100 + 8 * n
def offFmemWin (i : Nat) : Nat := 0x401000 + 0x20 * i
def offFmemKey (i : Nat) : Nat := 0x401008 + 0x20 * i
def offFmemSweep (i : Nat) : Nat := 0x401010 + 0x20 * i
def offFmemOld (i : Nat) : Nat := 0x401018 + 0x20 * i
def offCmapCtl : Nat := 0x500000
def offSwatchCtl : Nat := 0x500100
def offSwatchWr : Nat := 0x500108
def offSwatchRd : Nat := 0x500110
def offSwatchStat : Nat := 0x500118
def offSwatchAper : Nat := 0x500120
def offSampleCtl : Nat := 0x500200
def offSampleQbase : Nat := 0x500208
def offSamplePtr : Nat := 0x500210
def offSampleStat : Nat := 0x500218
def offRouteStat : Nat := 0x500300
def offPartCfg (i q : Nat) : Nat := 0x600000 + 0x1000 * i + 8 * q
def offPartCtl (i : Nat) : Nat := 0x600040 + 0x1000 * i
def offPartState (i : Nat) : Nat := 0x600048 + 0x1000 * i
/-- Counter `k` of R304 (0 RXP, 1 RXB, 2 TXP, 3 TXB, 4 DROP, 5 MARK) of partition index i, class c. -/
def offPartCnt (i c k : Nat) : Nat := 0x600800 + 0x1000 * i + 0x30 * c + 8 * k
/-- A register of collective slot n (R208). -/
def offColl (n r : Nat) : Nat := 0x300000 + 0x40 * n + r
def offTileStatus (t : Nat) : Nat := 0x200000 + 0x4000 * t
def offTileStage (t st : Nat) : Nat := 0x200100 + 0x4000 * t + 8 * st
def offLeg (n e : Nat) : Nat := 0x2000000 + 0x400 * n + 8 * e
def offLate (n e : Nat) : Nat := 0x2100000 + 0x1000 * n + 32 * e
def offRoute (d : Nat) : Nat := 0x1000000 + 8 * d
def offGroup (g : Nat) : Nat := 0x1020000 + 16 * g
def offMcast (m : Nat) : Nat := 0x1030000 + 16 * m
def offCmap (b t c : Nat) : Nat := 0x1100000 + 0x4000 * b + 0x200 * t + 0x40 * c
def offRed (k : Nat) : Nat := 0x3000000 + 32 * k
def offMarkProf (k : Nat) : Nat := 0x3001000 + 8 * k
def offQueue (eq qset tc : Nat) : Nat := 0x3100000 + 8 * (256 * eq + 8 * qset + tc)
def offPolicer (p q : Nat) : Nat := 0x3200000 + 16 * (32 * p + q)
def offCalendar : Nat := 0x3300000
def offCtxState (n : Nat) : Nat := 0x100000 + 0x400 * n
def offCtxCmd (n : Nat) : Nat := 0x100008 + 0x400 * n
def offCtxErr (n : Nat) : Nat := 0x100010 + 0x400 * n
def offCe (e : Nat) : Nat := 0x200000 + 0x1000 * e
def offTallyCfg (n : Nat) : Nat := 0x300000 + 0x10 * n
def offTallyVal (n : Nat) : Nat := 0x300008 + 0x10 * n
def offTallyPend (k : Nat) : Nat := 0x310000 + 8 * k
def offCcCfg : Nat := 0x405000
def offCcStat : Nat := 0x405008
/-- Register r of datagram queue q (R169). -/
def offDgq (q r : Nat) : Nat := 0x406000 + 0x40 * q + r
def offDgqPend : Nat := 0x406400
def offNode (n : Nat) : Nat := 0x410000 + 8 * n
def offIsland (n : Nat) : Nat := 0x500000 + 8 * n
def offHwinBase (n : Nat) : Nat := 0x501000 + 0x10 * n
def offHwinCtl (n : Nat) : Nat := 0x501008 + 0x10 * n
def offEpHomeStat : Nat := 0x502000
def offProd (n : Nat) : Nat := 0x600000 + 0x1000 * n
def offCons (n : Nat) : Nat := 0x600008 + 0x1000 * n

/-- Ports of a part: 72 logical ports on the switch (R18), 4 on the end point. -/
def nPorts : Dev → Nat
  | .sw => 72
  | .ep => 4

/-- Register r of port n (R414). -/
def offPort (d : Dev) (n r : Nat) : Nat :=
  match d with
  | .sw => 0x100000 + 0x2000 * n + r
  | .ep => 0x400000 + 0x1000 * n + r

/-- SW_LSUP_k_STAT, EP_LSUP_STAT (R409). -/
def offLsup (d : Dev) (k : Nat) : Nat :=
  match d with
  | .sw => 0x1F0000 + 8 * k
  | .ep => 0x404000

/-- SW_BKT_k_CFG, EP_BKT_k_CFG (R419). -/
def offBkt (d : Dev) (k : Nat) : Nat :=
  match d with
  | .sw => 0x252000 + 8 * k
  | .ep => 0x404100 + 8 * k

def offHomeStat : Dev → Nat
  | .sw => offSwHomeStat
  | .ep => offEpHomeStat

/-- Size of BAR0 (R437). -/
def bar0Size : Dev → Nat
  | .sw => 0x4000000
  | .ep => 0x1000000

/-! ## Fields -/

/-- Index and remainder of an offset inside `count` blocks of `stride` bytes from `base`. -/
def inBlocks (off base stride count : Nat) : Option (Nat × Nat) :=
  if base ≤ off ∧ off < base + stride * count then some ((off - base) / stride, (off - base) % stride) else none

def wholeRo : List Fld := [{ hi := 63, lo := 0, acc := .ro }]
def wholeRw : List Fld := [{ hi := 63, lo := 0, acc := .rw }]

/-- Registers of R447-R450, R434, R438. -/
def globalFields (d : Dev) (off : Nat) : List Fld :=
  if off = offId then
    [{ hi := 63, lo := 48, acc := .ro, reset := 0x2E4D },
     { hi := 47, lo := 32, acc := .ro, reset := match d with | .sw => 0x7260 | .ep => 0x0404 },
     { hi := 31, lo := 24, acc := .ro, reset := match d with | .sw => 0x20 | .ep => 0x11 }]
  else if off = offStatus then
    [{ hi := 15, lo := 15, acc := .ro }, { hi := 14, lo := 14, acc := .ro, reset := 1 }, { hi := 13, lo := 0, acc := .ro }]
  else if off = offCtl then [{ hi := 63, lo := 32, acc := .rw }, { hi := 0, lo := 0, acc := .wo }]
  else if off = offRefused then [{ hi := 31, lo := 0, acc := .rc }]
  else if off = offErrPtr then [{ hi := 31, lo := 0, acc := .ro }]
  else if 0x1000 ≤ off ∧ off < 0x3000 then wholeRo
  else if off = offMsixPba then wholeRo
  else match inBlocks off offMsixTable 16 64 with
    | some (_, r) => if r = 0 then wholeRw
        else [{ hi := 31, lo := 0, acc := .rw }, { hi := 32, lo := 32, acc := .rw, reset := 1 }]
    | none =>
      match d with
      | .sw => []
      | .ep =>
        if off = offPartAbort then [{ hi := 63, lo := 63, acc := .wo }, { hi := 11, lo := 0, acc := .wo }]
        else if off = offAbortCfg then [{ hi := 0, lo := 0, acc := .rw }]
        else []

/-- Registers of R453, R460. -/
def mboxFields (off : Nat) : List Fld :=
  if off < offMboxCtl then wholeRw
  else if off = offMboxCtl then
    [{ hi := 31, lo := 16, acc := .rw, reset := 0xA, legal := [(1, 1000)] }, { hi := 3, lo := 3, acc := .w1c },
     { hi := 2, lo := 2, acc := .w1c }, { hi := 1, lo := 1, acc := .ro }, { hi := 0, lo := 0, acc := .wo }]
  else if off = offMboxAck then [{ hi := 63, lo := 63, acc := .w1c }, { hi := 47, lo := 0, acc := .ro }]
  else if off < offDbStatus then wholeRo
  else if off = offDbStatus then [{ hi := 31, lo := 0, acc := .w1c }]
  else if off = offDbMask then [{ hi := 31, lo := 0, acc := .rw, reset := 0xFFFFFFFF }]
  else []

/-- Registers of R500-R506. -/
def clockFields (d : Dev) (off : Nat) : List Fld :=
  if off = offCptStatus then
    [{ hi := 63, lo := 60, acc := .ro }, { hi := 59, lo := 59, acc := .w1c, sticky := true }, { hi := 49, lo := 46, acc := .ro },
     { hi := 40, lo := 39, acc := .ro }, { hi := 7, lo := 0, acc := .ro }]
  else if off = offCptEvent then [{ hi := 8, lo := 0, acc := .w1c }]
  else if off = offTimeNs then wholeRo
  else if off = offTimeFrac then [{ hi := 15, lo := 0, acc := .ro }]
  else if off = offTimeCtl then
    match d with
    | .sw =>
      [{ hi := 63, lo := 62, acc := .rw, reset := 1, legal := [(0, 2)] },
       { hi := 61, lo := 55, acc := .rw, reset := 0, legal := [(0, 71)] }, { hi := 54, lo := 48, acc := .rw },
       { hi := 47, lo := 46, acc := .rw, legal := [(0, 2)] }, { hi := 31, lo := 0, acc := .rw }]
    | .ep =>
      [{ hi := 63, lo := 62, acc := .rw, reset := 2, legal := [(0, 0), (2, 2)] },
       { hi := 61, lo := 55, acc := .rw, reset := 0x7F, legal := [(0, 3), (0x7F, 0x7F)] }, { hi := 31, lo := 0, acc := .rw }]
  else if off = offTimeStatus then
    [{ hi := 63, lo := 63, acc := .ro }, { hi := 62, lo := 62, acc := .w1c }, { hi := 61, lo := 58, acc := .ro, reset := 0xF },
     { hi := 31, lo := 0, acc := .ro }]
  else if off = offPwrStatus then [{ hi := 63, lo := 28, acc := .ro }]
  else match d with
    | .ep => []
    | .sw =>
      if off = offPwrCtl then [{ hi := 11, lo := 0, acc := .rw, reset := 0x58C, legal := [(900, 1420)] }]
      else if off = offHoldLog then [{ hi := 63, lo := 12, acc := .ro }]
      else []

/-- Registers of a port common to both parts (R414-R417). -/
def portFields (r : Nat) : List Fld :=
  if r = 0 then [{ hi := 63, lo := 0, acc := .ro }]
  else if r = 8 then [{ hi := 8, lo := 8, acc := .rw, reset := 1 }, { hi := 4, lo := 4, acc := .w1c }, { hi := 3, lo := 0, acc := .wo }]
  else if r = 0x10 then
    [{ hi := 63, lo := 48, acc := .rc }, { hi := 47, lo := 32, acc := .rc }, { hi := 31, lo := 16, acc := .rc },
     { hi := 15, lo := 0, acc := .rc }]
  else if r = 0x18 then
    [{ hi := 63, lo := 48, acc := .rc }, { hi := 47, lo := 16, acc := .rc }, { hi := 15, lo := 0, acc := .rc }]
  else match inBlocks r 0x100 0x10 9 with
    | some (_, 0) => [{ hi := 63, lo := 62, acc := .ro }, { hi := 58, lo := 56, acc := .ro }, { hi := 55, lo := 40, acc := .ro },
        { hi := 39, lo := 32, acc := .ro }, { hi := 31, lo := 24, acc := .ro, reset := 0x80 }]
    | some (_, 8) => [{ hi := 63, lo := 32, acc := .rc }, { hi := 31, lo := 0, acc := .rc }]
    | _ => []

/-- SW_LSUP_k_STAT (R409). -/
def lsupFields : List Fld :=
  [{ hi := 63, lo := 62, acc := .ro, reset := 1 }, { hi := 61, lo := 60, acc := .ro }, { hi := 47, lo := 40, acc := .ro, reset := 0x80 },
   { hi := 39, lo := 32, acc := .ro, reset := 0x80 }, { hi := 31, lo := 16, acc := .rc }, { hi := 0, lo := 0, acc := .wo }]

/-- SW_BKT_k_CFG (R419): THRESHOLD and DRAIN_MS of bucket kind k. -/
def bktFields (k : Nat) : List Fld :=
  let (th, dr) : Nat × Nat := match k with
    | 0 => (0x100, 0x3E8)
    | 1 => (0x8, 0xEA60)
    | 2 => (0x4, 0x927C0)
    | 3 => (0x2, 0x36EE80)
    | 4 => (0x3, 0x36EE80)
    | _ => (0x10, 0x36EE80)
  [{ hi := 47, lo := 32, acc := .rw, reset := th, legal := [(1, 0xFFFF)] },
   { hi := 31, lo := 0, acc := .rw, reset := dr, legal := [(1, 0xFFFFFFFF)] }]

/-- Two 32-bit counters that a read clears. -/
def rcPair : List Fld := [{ hi := 63, lo := 32, acc := .rc }, { hi := 31, lo := 0, acc := .rc }]

/-- Registers only a switch port has (R255, R265, R282). -/
def swPortFields (r : Nat) : List Fld :=
  if 0x800 ≤ r ∧ r < 0x848 then wholeRo
  else if 0x880 ≤ r ∧ r < 0x8A8 then rcPair
  else portFields r

/-- A register of a collective slot (R204, R205, R209-R216, R543). -/
def collFields (r : Nat) : List Fld :=
  if r = 0x00 then
    [{ hi := 63, lo := 62, acc := .rw }, { hi := 61, lo := 61, acc := .rw }, { hi := 60, lo := 54, acc := .rw, legal := [(0, 71)] },
     { hi := 53, lo := 42, acc := .rw, legal := [(1, 0xFFE)] }, { hi := 41, lo := 26, acc := .rw },
     { hi := 25, lo := 6, acc := .rw, legal := [(0, 0xFFFFE)] }, { hi := 5, lo := 3, acc := .rw, legal := [(0, 4)] }]
  else if r = 0x08 then
    [{ hi := 63, lo := 57, acc := .rw }, { hi := 56, lo := 47, acc := .rw }, { hi := 46, lo := 33, acc := .rw },
     { hi := 32, lo := 16, acc := .rw, reset := 0xC8, legal := [(1, 100000)] }, { hi := 15, lo := 4, acc := .rw }]
  else if r = 0x10 then [{ hi := 3, lo := 0, acc := .wo }]
  else if r = 0x18 then
    [{ hi := 63, lo := 24, acc := .ro }, { hi := 15, lo := 12, acc := .ro }, { hi := 11, lo := 11, acc := .w1c },
     { hi := 10, lo := 10, acc := .ro }, { hi := 3, lo := 0, acc := .ro }]
  else if r = 0x20 then
    [{ hi := 55, lo := 48, acc := .rw, legal := [(0, 63), (192, 255)] },
     { hi := 47, lo := 32, acc := .rw, legal := [(0, 1023), (64512, 65535)] }, { hi := 17, lo := 16, acc := .rw, legal := [(0, 2)] },
     { hi := 15, lo := 12, acc := .rw, legal := [(0, 5)] }, { hi := 9, lo := 8, acc := .rw, legal := [(0, 2)] },
     { hi := 0, lo := 0, acc := .rw }]
  else if r = 0x28 then
    [{ hi := 63, lo := 47, acc := .ro }, { hi := 43, lo := 38, acc := .ro }, { hi := 33, lo := 33, acc := .w1c },
     { hi := 32, lo := 32, acc := .w1c }, { hi := 31, lo := 0, acc := .ro }]
  else if r = 0x30 then
    [{ hi := 63, lo := 48, acc := .rc }, { hi := 47, lo := 32, acc := .rc }, { hi := 31, lo := 16, acc := .rc },
     { hi := 15, lo := 0, acc := .rc }]
  else [{ hi := 6, lo := 0, acc := .rw, legal := [(0, 71)] }]

/-- Fields of a leg-table entry (R211). -/
def legFields : List Fld :=
  [{ hi := 63, lo := 63, acc := .rw }, { hi := 62, lo := 62, acc := .rw }, { hi := 61, lo := 55, acc := .rw, legal := [(0, 71)] },
   { hi := 54, lo := 41, acc := .rw }, { hi := 40, lo := 27, acc := .rw }]

/-- The switch's registers (R443). -/
def swFields (off : Nat) : List Fld :=
  if off < 0x10000 then globalFields .sw off
  else if off < 0x20000 then mboxFields off
  else if off < 0x30000 then clockFields .sw off
  else if off < 0x40000 then
    if off = offSecState then [{ hi := 39, lo := 0, acc := .ro }]
    else if off = offSchedPtr then [{ hi := 31, lo := 0, acc := .ro }]
    else if offSched ≤ off ∧ off < offSched + 0x800 then wholeRo else []
  else if off < 0x100000 then
    if off = offLathStatus ∨ off = offLathId ∨ off = offLathGlobal then wholeRo
    else if off = offLathInfo then [{ hi := 63, lo := 16, acc := .ro }, { hi := 15, lo := 0, acc := .rc }]
    else []
  else if off < 0x1F0000 then
    match inBlocks off 0x100000 0x2000 72 with
    | some (_, r) => swPortFields r
    | none => []
  else if off < 0x200000 then (match inBlocks off 0x1F0000 8 20 with | some _ => lsupFields | none => [])
  else if off < 0x250000 then
    match inBlocks off 0x200000 0x4000 18 with
    | some (t, 0) => [{ hi := 63, lo := 59, acc := .ro, reset := t }, { hi := 55, lo := 52, acc := .ro }, { hi := 47, lo := 40, acc := .ro },
        { hi := 31, lo := 0, acc := .rc }]
    | some (_, r) => if 0x100 ≤ r ∧ r < 0x160 then [{ hi := 35, lo := 32, acc := .ro }, { hi := 31, lo := 0, acc := .rc }] else []
    | none => []
  else if off < 0x300000 then
    if off = offPbuf then [{ hi := 43, lo := 22, acc := .ro }, { hi := 21, lo := 0, acc := .ro, reset := 0x280000 }]
    else if off = offPatchStatus then
      [{ hi := 63, lo := 44, acc := .ro }, { hi := 43, lo := 24, acc := .ro, reset := 0x3FFFF }, { hi := 2, lo := 2, acc := .ro },
       { hi := 1, lo := 0, acc := .ro, reset := 2 }]
    else if off = offPatchCtl then [{ hi := 8, lo := 8, acc := .wo }, { hi := 5, lo := 5, acc := .w1c }, { hi := 4, lo := 0, acc := .wo }]
    else match inBlocks off 0x252000 8 6 with
      | some (k, _) => bktFields k
      | none => []
  else if off < 0x310000 then collFields ((off - 0x300000) % 0x40)
  else if off < 0x400000 then
    if off = offExpSel then [{ hi := 41, lo := 32, acc := .rw }, { hi := 19, lo := 0, acc := .rw }]
    else if off = offExpData then [{ hi := 63, lo := 0, acc := .ro, reset := 0x8000800080008000 }]
    else if off = offRengLo then wholeRo
    else if off = offRengHi then [{ hi := 7, lo := 0, acc := .ro }]
    else match inBlocks off 0x310200 8 16 with
      | some _ => [{ hi := 63, lo := 0, acc := .w1c }]
      | none => []
  else if off < 0x500000 then
    if off = offHbmCarve then wholeRo
    else if off = offHbmStatus then [{ hi := 63, lo := 32, acc := .ro }, { hi := 8, lo := 8, acc := .ro }, { hi := 5, lo := 0, acc := .ro }]
    else if off = offHbmErr then
      [{ hi := 63, lo := 32, acc := .rc }, { hi := 31, lo := 16, acc := .rc }, { hi := 15, lo := 8, acc := .rc }, { hi := 0, lo := 0, acc := .w1c }]
    else if off = offBar2Sel then [{ hi := 63, lo := 63, acc := .rw }, { hi := 5, lo := 0, acc := .rw }]
    else if off = offBar2Stat then rcPair
    else if off = offSweepRate then [{ hi := 7, lo := 0, acc := .rw, reset := 8, legal := [(1, 64)] }]
    else if off = offSwHomeStat then rcPair
    else match inBlocks off 0x400100 8 64, inBlocks off 0x401000 8 256 with
      | none, none => []
      | _, _ => wholeRo
  else if off < 0x600000 then
    if off = offCmapCtl then
      [{ hi := 63, lo := 32, acc := .ro }, { hi := 17, lo := 17, acc := .ro }, { hi := 16, lo := 16, acc := .rw },
       { hi := 9, lo := 0, acc := .rw, reset := 0x64, legal := [(1, 1000)] }]
    else if off = offSwatchCtl then [{ hi := 63, lo := 32, acc := .ro }, { hi := 1, lo := 1, acc := .rw }, { hi := 0, lo := 0, acc := .rw }]
    else if off = offSwatchWr then [{ hi := 39, lo := 0, acc := .ro }]
    else if off = offSwatchRd then [{ hi := 39, lo := 0, acc := .rw }]
    else if off = offSwatchStat then rcPair
    else if off = offSwatchAper then [{ hi := 63, lo := 23, acc := .rw }]
    else if off = offSampleCtl then [{ hi := 15, lo := 0, acc := .rw }]
    else if off = offSampleQbase then [{ hi := 63, lo := 20, acc := .rw }]
    else if off = offSamplePtr then [{ hi := 44, lo := 32, acc := .ro }, { hi := 12, lo := 0, acc := .rw }]
    else if off = offSampleStat then rcPair
    else if off = offRouteStat then [{ hi := 63, lo := 48, acc := .rc }, { hi := 47, lo := 32, acc := .rc }, { hi := 31, lo := 0, acc := .rc }]
    else []
  else if off < 0x1000000 then
    match inBlocks off 0x600000 0x1000 64 with
    | some (_, r) =>
      if r < 0x40 then wholeRo
      else if r = 0x40 then [{ hi := 8, lo := 8, acc := .w1c }, { hi := 3, lo := 0, acc := .wo }]
      else if r = 0x48 then [{ hi := 47, lo := 32, acc := .ro }, { hi := 11, lo := 8, acc := .ro }, { hi := 1, lo := 0, acc := .ro }]
      else if 0x800 ≤ r ∧ r < 0x980 then wholeRo else []
    | none => []
  else match inBlocks off 0x2000000 0x400 1024 with
    | some (_, r) => if r < 576 then legFields else []
    | none => wholeRo

/-- The end point's registers (R444). -/
def epFields (off : Nat) : List Fld :=
  if off < 0x10000 then globalFields .ep off
  else if off < 0x20000 then mboxFields off
  else if off < 0x30000 then clockFields .ep off
  else if off < 0x40000 then
    if off = offSecState then [{ hi := 39, lo := 0, acc := .ro }]
    else if off = offSecFlush then [{ hi := 63, lo := 63, acc := .wo }, { hi := 11, lo := 0, acc := .wo }]
    else []
  else if off < 0x100000 then
    if off = offFqBase then [{ hi := 63, lo := 17, acc := .rw }, { hi := 0, lo := 0, acc := .rw }]
    else if off = offFqPtr then [{ hi := 44, lo := 32, acc := .ro }, { hi := 12, lo := 0, acc := .rw }]
    else if off = offFqStatus then [{ hi := 63, lo := 63, acc := .w1c }, { hi := 38, lo := 32, acc := .ro }, { hi := 31, lo := 0, acc := .rc }]
    else if off = offFqResume then [{ hi := 0, lo := 0, acc := .wo }]
    else if off = offCtxTable then [{ hi := 63, lo := 18, acc := .rw }]
    else []
  else if off < 0x200000 then
    match inBlocks off 0x100000 0x400 1024 with
    | some (_, 0) => [{ hi := 21, lo := 21, acc := .w1c }, { hi := 20, lo := 17, acc := .ro }, { hi := 16, lo := 16, acc := .w1c },
        { hi := 15, lo := 0, acc := .ro }]
    | some (_, 8) => [{ hi := 3, lo := 0, acc := .wo }]
    | some (_, 16) => [{ hi := 63, lo := 63, acc := .w1c }, { hi := 62, lo := 59, acc := .ro }, { hi := 31, lo := 0, acc := .ro }]
    | _ => []
  else if off < 0x300000 then
    match inBlocks off 0x200000 0x1000 16 with
    | some (_, 0) => [{ hi := 63, lo := 53, acc := .ro }, { hi := 31, lo := 0, acc := .rc }]
    | _ => []
  else if off < 0x310000 then
    if off % 16 = 0 then
      [{ hi := 63, lo := 63, acc := .rw }, { hi := 54, lo := 45, acc := .rw }, { hi := 10, lo := 10, acc := .ro }, { hi := 9, lo := 9, acc := .w1c },
       { hi := 8, lo := 5, acc := .ro }, { hi := 1, lo := 1, acc := .rw }, { hi := 0, lo := 0, acc := .rw }]
    else [{ hi := 63, lo := 32, acc := .rw }, { hi := 31, lo := 0, acc := .ro }]
  else if off < 0x400000 then (match inBlocks off 0x310000 8 64 with | some _ => [{ hi := 63, lo := 0, acc := .w1c }] | none => [])
  else if off < 0x404000 then portFields ((off - 0x400000) % 0x1000)
  else if off < 0x410000 then
    if off = 0x404000 then lsupFields
    else if off = offCcCfg then
      [{ hi := 63, lo := 44, acc := .rw, reset := 0x10000, legal := [(1, 0xFFFFF)] },
       { hi := 43, lo := 32, acc := .rw, reset := 0x10, legal := [(1, 0xFFF)] },
       { hi := 31, lo := 24, acc := .rw, reset := 0x32, legal := [(1, 0xFF)] },
       { hi := 23, lo := 16, acc := .rw, reset := 0x14, legal := [(1, 0xFF)] }, { hi := 15, lo := 4, acc := .rw, reset := 0x10 },
       { hi := 0, lo := 0, acc := .rw, reset := 1 }]
    else if off = offCcStat then rcPair
    else if off = offDgqPend then [{ hi := 15, lo := 0, acc := .w1c }]
    else match inBlocks off 0x404100 8 3, inBlocks off 0x406000 0x40 16 with
      | some (k, _), _ => bktFields k
      | none, some (_, 0) => [{ hi := 63, lo := 63, acc := .rw }, { hi := 62, lo := 62, acc := .rw }, { hi := 59, lo := 56, acc := .rw },
          { hi := 55, lo := 44, acc := .rw, legal := [(1, 0xFFE)] }, { hi := 0, lo := 0, acc := .w1c }]
      | none, some (_, 8) => [{ hi := 63, lo := 12, acc := .rw }]
      | none, some (_, 16) => [{ hi := 42, lo := 32, acc := .ro }, { hi := 10, lo := 0, acc := .rw }]
      | none, some (_, 24) => [{ hi := 63, lo := 12, acc := .rw }]
      | none, some (_, 32) => [{ hi := 42, lo := 32, acc := .ro }, { hi := 10, lo := 0, acc := .rw }]
      | none, some (_, 40) => [{ hi := 63, lo := 48, acc := .rc }, { hi := 47, lo := 32, acc := .rc }, { hi := 31, lo := 16, acc := .rc },
          { hi := 15, lo := 0, acc := .rc }]
      | _, _ => []
  else if off < 0x430000 then
    [{ hi := 31, lo := 31, acc := .rw }, { hi := 30, lo := 29, acc := .rw, legal := [(0, 2)] }, { hi := 3, lo := 0, acc := .rw }]
  else if off < 0x501000 then
    match inBlocks off 0x500000 8 3 with
    | some _ => [{ hi := 63, lo := 63, acc := .rw }, { hi := 62, lo := 62, acc := .w1c }, { hi := 13, lo := 0, acc := .rw }]
    | none => []
  else if off < 0x600000 then
    if off = offEpHomeStat then
      [{ hi := 63, lo := 48, acc := .rc }, { hi := 47, lo := 32, acc := .rc }, { hi := 31, lo := 16, acc := .rc }, { hi := 15, lo := 0, acc := .rc }]
    else match inBlocks off 0x501000 0x10 64 with
      | some (_, 0) => [{ hi := 43, lo := 21, acc := .rw }]
      | some (_, _) => [{ hi := 63, lo := 63, acc := .rw }, { hi := 55, lo := 44, acc := .rw, legal := [(1, 0xFFE)] },
          { hi := 43, lo := 21, acc := .rw }, { hi := 1, lo := 1, acc := .w1c }]
      | none => []
  else match inBlocks off 0x600000 0x1000 1024 with
    | some (_, 0) => [{ hi := 31, lo := 0, acc := .rw }]
    | some (_, 8) => [{ hi := 31, lo := 0, acc := .ro }]
    | _ => []

/-- The fields of the register at an offset; none where no register sits (R441). -/
def fieldsAt : Dev → Nat → List Fld
  | .sw, off => swFields off
  | .ep, off => epFields off

/-- The reset value of the register at an offset. -/
def regReset (d : Dev) (off : Nat) : W64 :=
  BitVec.ofNat 64 ((fieldsAt d off).foldl (fun a f => a + (f.reset % 2 ^ (f.hi + 1 - f.lo)) * 2 ^ f.lo) 0)

end Sys2Proof.Machine
end

