-- ==== Sys2Proof/WellFormed.lean ====
section
/-! DEFINITION. Well-formed commands: every unit a command names exists on its part. A command that is not well-formed describes
no event of the spec; its meaning faults (log 10). -/

namespace Sys2Proof

/-- A port of a part (R18): 72 on the switch, 4 on the end point. -/
def hasPort : Dev → Nat → Bool
  | .sw, n => decide (n < 72)
  | .ep, n => decide (n < 4)

/-- A wavelength of a port (R402). -/
def hasWl (w : Nat) : Bool := decide (w < 9)

/-- A laser-supply input (R407). -/
def hasLsup : Dev → Nat → Bool
  | .sw, k => decide (k < 20)
  | .ep, k => decide (k < 1)

/-- A logical tile (R19). -/
def hasTile (t : Nat) : Bool := decide (t < 18)

/-- A reduction engine (R175). -/
def hasEngine (e : Nat) : Bool := decide (e < 72)

/-- A copy engine (R18). -/
def hasCopyEngine (e : Nat) : Bool := decide (e < 16)

/-- An egress (R250). -/
def hasEq (e : Nat) : Bool := decide (e < 75)

/-- A calendar (R349). -/
def hasCal (c : Nat) : Bool := decide (c < 16)

/-- A context (R129). -/
def hasCtx (n : Nat) : Bool := decide (n < 1024)

/-- A tally (R146). -/
def hasTally (n : Nat) : Bool := decide (n < 4096)

/-- A datagram queue (R168). -/
def hasDgq (q : Nat) : Bool := decide (q < 16)

/-- A collective slot (R208). -/
def hasSlot (n : Nat) : Bool := decide (n < 1024)

/-- A local partition index (R342). -/
def hasIndex (i : Nat) : Bool := decide (i < 64)

/-- A node-table entry (R139). -/
def hasNode (n : Nat) : Bool := decide (n < 16384)

/-- An island entry (R117). -/
def hasIsland (n : Nat) : Bool := decide (n < 3)

/-- A home window (R81). -/
def hasWindow (n : Nat) : Bool := decide (n < 64)

/-- An MSI-X vector (R438). -/
def hasVector (v : Nat) : Bool := decide (v < 64)

/-- A pseudo-channel group (R306). -/
def hasGroup (g : Nat) : Bool := decide (g < 32)

/-- A UCIe module (R523). -/
def hasModule (m : Nat) : Bool := decide (m < 4)

/-- A message-data register (R453). -/
def hasMboxData (k : Nat) : Bool := decide (k < 8)

/-- A response tag (R89). -/
def hasTag (t : Nat) : Bool := decide (t < 8192)

/-- The resource of a bucket (R419). -/
def hasBucket : Dev → BucketId → Bool
  | d, .wlUcw p w => hasPort d p && hasWl w
  | d, .wlSer p w => hasPort d p && hasWl w
  | d, .portRcv p => hasPort d p
  | .sw, .tile t => hasTile t
  | .sw, .engine e => hasEngine e
  | .sw, .hbmPc pc => decide (pc < 192)
  | .ep, _ => false

/-- A virtual output queue (R259). -/
def hasVoq (k : VoqKey) : Bool := decide (k.src < 76) && hasEq k.eq && decide (k.qset < 32) && decide (k.tc < 8)

/-- A PLL of PLL_LOCK (R500). -/
def hasCause : ClockCause → Bool
  | .refclk => true
  | .pll bit => decide (bit < 7)

/-- An access inside BAR0 (R437). -/
def hasBar0 : Dev → Nat → Bool
  | .sw, off => decide (off < 0x4000000)
  | .ep, off => decide (off < 0x1000000)

def hasWrite : Dev → RegWrite → Bool
  | d, .bar0 off _ _ => hasBar0 d off
  | _, .busMaster _ => true
  | _, .msixEnable _ => true

/-- Every unit the command names exists. -/
def Instr.wellFormed : Instr → Bool
  | .writeRegister d w => hasWrite d w
  | .readClear d off _ _ => hasBar0 d off
  | .powerOn _ => true
  | .perstAssert _ => true
  | .perstRelease _ => true
  | .pcieLinkReset _ _ => true
  | .bar0BadAccess d _ off _ => hasBar0 d off
  | .msixUnmask _ v => hasVector v
  | .dataFlitReceive d port _ => hasPort d port
  | .ctrlFlitReceive d port _ => hasPort d port
  | .replayTimerExpiry d port => hasPort d port
  | .replayBudgetExpiry d port => hasPort d port
  | .flitSend d port => hasPort d port
  | .uncorrectableCodeword d port wl => hasPort d port && hasWl wl
  | .serWindowEnd d port wl _ _ => hasPort d port && hasWl wl
  | .bucketDrain d b => hasBucket d b
  | .wavelengthLoss d port wl => hasPort d port && hasWl wl
  | .lockLost d port => hasPort d port
  | .lightLost d port => hasPort d port
  | .subst d port wl _ => hasPort d port && hasWl wl
  | .substAck d port wl _ => hasPort d port && hasWl wl
  | .substSwitchover d port => hasPort d port
  | .substTimeout d port => hasPort d port
  | .paramNode d port wl _ => hasPort d port && hasWl wl
  | .paramPort d port wl _ => hasPort d port && hasWl wl
  | .rxMap d port wl _ _ => hasPort d port && hasWl wl
  | .linkUp d port => hasPort d port
  | .trainingTimeout d port => hasPort d port
  | .trainingWaitEnd d port => hasPort d port
  | .lightDetected d port wl => hasPort d port && hasWl wl
  | .retrain d port => hasPort d port
  | .portRetire d port => hasPort d port
  | .unretire d port => hasPort d port
  | .portEnable d port _ => hasPort d port
  | .loopbackTestDone port _ => hasPort .sw port
  | .laserFailover d k _ => hasLsup d k
  | .laserInputLost d k _ _ => hasLsup d k
  | .lsupLossPatchTrigger k => hasLsup .sw k
  | .laserLightReturn d k _ _ => hasLsup d k
  | .usePrimary d k => hasLsup d k
  | .tileInternalError t _ _ => hasTile t
  | .engineFault e _ _ => hasEngine e
  | .patchGo _ => true
  | .patchBegin _ => true
  | .patchMove _ => true
  | .patchEnd => true
  | .switchIngress port _ => hasPort .sw port
  | .spillComplete _ => true
  | .refill q _ => hasVoq q
  | .sampleEntryWrite => true
  | .egressArbitrate eq => hasEq eq
  | .calendarSlotStart cal => hasCal cal
  | .frameFoundBad _ _ => true
  | .cmapIntervalEnd => true
  | .swatchEnable _ => true
  | .bar2Write _ _ _ => true
  | .bar2Read _ _ _ => true
  | .sweepStep n _ => hasIndex n
  | .scrubStep _ _ => true
  | .lathLoad _ => true
  | .lathImageFetched _ => true
  | .lathInForce => true
  | .groupClearDone g => hasGroup g
  | .getVersion _ => true
  | .getCapabilities _ => true
  | .negotiateAlgorithms _ _ => true
  | .getDigests _ _ => true
  | .getCertificate _ _ _ => true
  | .challenge _ _ _ _ => true
  | .getMeasurements _ _ _ _ => true
  | .keyExchange _ => true
  | .finish _ _ _ => true
  | .getEncapsulatedRequest _ _ => true
  | .deliverEncapsulatedResponse _ _ _ => true
  | .heartbeat _ _ => true
  | .keyUpdate _ _ => true
  | .endSession _ _ => true
  | .respondIfReady _ => true
  | .spdmUnsupported _ _ => true
  | .doeDiscovery _ _ => true
  | .sessionTimeout _ _ => true
  | .install _ _ => true
  | .makeCurrent _ _ => true
  | .keyFlip _ _ => true
  | .retire _ _ => true
  | .retireForce _ _ => true
  | .keySlotEmptied _ _ => true
  | .holdoffClear _ _ => true
  | .clear _ _ => true
  | .partStatus _ _ => true
  | .readCounters _ _ => true
  | .readSlot _ _ => true
  | .readEvents _ _ => true
  | .setOwner _ _ => true
  | .readLathLog _ _ => true
  | .secFlush _ => true
  | .identDerived _ _ => true
  | .jtagInstruction _ _ _ _ => true
  | .throttleBoundary _ => true
  | .throttleUpdate _ _ => true
  | .directLoad ctx _ _ _ _ => hasCtx ctx
  | .directStore ctx _ _ _ => hasCtx ctx
  | .directAtomic ctx _ _ _ _ _ => hasCtx ctx
  | .release ctx _ _ => hasCtx ctx
  | .releaseStore ctx _ _ _ _ => hasCtx ctx
  | .releaseAtomic ctx _ _ _ _ _ _ => hasCtx ctx
  | .releaseComplete _ => true
  | .acquireLoad ctx _ _ _ _ _ => hasCtx ctx
  | .acquire ctx _ _ _ => hasCtx ctx
  | .requestIssue _ tag _ _ => hasTag tag
  | .retryDue _ => true
  | .retrySend _ => true
  | .retryAbandon _ => true
  | .outcomeExpiry _ => true
  | .tagReleaseTimer tag => hasTag tag
  | .readResp port _ => hasPort .ep port
  | .atomicResp port _ => hasPort .ep port
  | .completion port _ => hasPort .ep port
  | .cwIncrease _ => true
  | .read d port _ _ => hasPort d port
  | .write d port _ _ => hasPort d port
  | .topcoatWrite d port _ _ => hasPort d port
  | .topcoatExpiry _ _ _ => true
  | .fetchAdd d port _ _ => hasPort d port
  | .swap d port _ _ => hasPort d port
  | .compareSwap d port _ _ => hasPort d port
  | .fetchAnd d port _ _ => hasPort d port
  | .fetchOr d port _ _ => hasPort d port
  | .fetchXor d port _ _ => hasPort d port
  | .fetchMin d port _ _ => hasPort d port
  | .fetchMax d port _ _ => hasPort d port
  | .tallyInc d port _ => hasPort d port
  | .dsEntryExpiry _ _ _ => true
  | .completionFlush _ => true
  | .invalidateResend _ => true
  | .invalidationTimeout _ => true
  | .invalidate port _ => hasPort .ep port
  | .invAck port _ => hasPort .ep port
  | .dropAll port _ => hasPort .ep port
  | .localStore _ _ => true
  | .homeAccessAnswer _ _ => true
  | .islandWrite n _ => hasIsland n
  | .hwinCtlWrite n _ => hasWindow n
  | .nodeEntryWrite n _ => hasNode n
  | .activate n _ => hasCtx n
  | .epochTaken n => hasCtx n
  | .load n _ => hasCtx n
  | .preempt n => hasCtx n
  | .preemptNow n => hasCtx n
  | .preemptStop n => hasCtx n
  | .resumeRetry n => hasCtx n
  | .resumeSkip n => hasCtx n
  | .ctxAbort n => hasCtx n
  | .ctxAbortComplete n _ => hasCtx n
  | .tagQuarantineEnd n => hasCtx n
  | .contextRelease n => hasCtx n
  | .epochRoll n => hasCtx n
  | .prodWrite n _ => hasCtx n
  | .descriptorFetch n _ => hasCtx n
  | .engineSwitch e n => hasCopyEngine e && hasCtx n
  | .copy n => hasCtx n
  | .store n => hasCtx n
  | .topcoat n => hasCtx n
  | .contrib n => hasCtx n
  | .wait n => hasCtx n
  | .waitMet n => hasCtx n
  | .signal n => hasCtx n
  | .reservedDescriptor n => hasCtx n
  | .atsCompletion _ _ => true
  | .prgResponse _ _ => true
  | .atsPriTimeout _ => true
  | .fqResume => true
  | .atsInvalidate _ _ _ _ => true
  | .invalidateCompletion _ => true
  | .tallyCfgWrite n _ => hasTally n
  | .tallyTargetWrite n _ => hasTally n
  | .dgqCfgWrite q _ => hasDgq q
  | .datagramSend q _ _ => hasDgq q
  | .datagram port _ _ => hasPort .ep port
  | .abortNotice port _ => hasPort .ep port
  | .epPartAbort _ => true
  | .slotAdmit n => hasSlot n
  | .slotAdmitted n => hasSlot n
  | .slotClose n => hasSlot n
  | .slotRelease n => hasSlot n
  | .collContrib port _ _ => hasPort .sw port
  | .collPartial port _ _ => hasPort .sw port
  | .collExponents port _ => hasPort .sw port
  | .accumulatorUe _ _ => true
  | .ready port _ => hasPort .sw port
  | .join port _ => hasPort .sw port
  | .resultAck port _ => hasPort .sw port
  | .closeAck port _ => hasPort .sw port
  | .doneAck port _ => hasPort .sw port
  | .resultNack port _ => hasPort .sw port
  | .chunkFail port _ => hasPort .sw port
  | .collScreed port _ => hasPort .sw port
  | .freed port _ => hasPort .sw port
  | .close port _ => hasPort .sw port
  | .done port _ => hasPort .sw port
  | .collResult port _ => hasPort .sw port
  | .recontrib port _ => hasPort .sw port
  | .progressTimeout n => hasSlot n
  | .closePhaseEnd n => hasSlot n
  | .doneTimeout n => hasSlot n
  | .collResendTimer _ _ => true
  | .fragmentRequestTimer _ _ => true
  | .childStallTimer _ _ => true
  | .resultResendTimer _ => true
  | .joinReply port _ => hasPort .ep port
  | .joinRefuse port _ => hasPort .ep port
  | .memberScreed port _ => hasPort .ep port
  | .chunkSend _ => true
  | .memberRecontrib port _ => hasPort .ep port
  | .memberResult port _ => hasPort .ep port
  | .resultWriteDone _ _ => true
  | .resultNackTimer _ _ => true
  | .memberFreed port _ => hasPort .ep port
  | .memberClose port _ => hasPort .ep port
  | .memberDone port _ => hasPort .ep port
  | .memberSilenceTimeout _ => true
  | .mboxSend _ => true
  | .mboxDataWrite _ k _ => hasMboxData k
  | .mboxTake _ => true
  | .mboxTimeout _ => true
  | .mboxAckPost _ => true
  | .mboxAckClear _ => true
  | .ping _ => true
  | .getInfo _ => true
  | .fwLoad _ => true
  | .fwLoadDone _ _ => true
  | .dbgPeek _ => true
  | .dbgPoke _ => true
  | .dbgTrace _ => true
  | .unknownMsg _ => true
  | .dbMaskWrite _ _ => true
  | .abortAll _ => true
  | .partAbort n => hasIndex n
  | .partAbortComplete n => hasIndex n
  | .partResume n => hasIndex n
  | .clockLoss _ c => hasCause c
  | .refclkReturn _ => true
  | .timeSync d port _ => hasPort d port
  | .timeReply d port _ => hasPort d port
  | .timeSyncTimer _ => true
  | .timeSourceLost _ => true
  | .ptpMessage _ => true
  | .timeCtlWrite _ _ => true
  | .timeNsRead _ => true
  | .supplyWarning _ => true
  | .supplyRise _ => true
  | .holdEnd _ _ => true
  | .holdEscalation => true
  | .undervoltageReset _ => true
  | .undervoltResetEnd _ => true
  | .railFault => true
  | .powerHold _ => true
  | .thermalHold _ => true
  | .thermalShutdown _ _ => true
  | .thermalWarn _ _ => true
  | .bootRomVerify _ _ _ => true
  | .firmwareStart _ _ => true
  | .switchStartComplete _ => true
  | .ucieTrained => true
  | .ucieRetrain m => hasModule m
  | .smbusBlockRead _ _ => true
  | .warningClearingFall _ => true
  | .railResetEnd => true
  | .ucieModuleRetrained m => hasModule m
  | .vendorDefinedRequest _ _ _ => true

end Sys2Proof
end

