-- ==== Sys2Proof/Machine/Ops.lean ====
section
/-! DEFINITION. Named operations over the registers, counters, clocks and outputs of the block: every other file reads and writes
them through these. -/

namespace Sys2Proof.Machine

open Sys2Proof

/-- Outcome of a meaning. -/
abbrev Res := Host.Outcome State Fault Refusal

/-- A meaning that acts on the block and leaves both memories alone. -/
def State.on (s : State) (f : Blk → Blk) : Res := .next { s with b := f s.b }

/-- A meaning guarded by the existence of the unit it names (log 10). -/
def State.onIf (s : State) (ok : Bool) (f : Blk → Blk) : Res := if ok then s.on f else .fault .noSuchUnit

/-- The next state of an outcome, or a state to stay in. -/
def Res.nextOr (s : State) : Res → State
  | .next t => t
  | _ => s

namespace Blk

/-! ## Parts -/

/-- The common blocks of a part. -/
def core (b : Blk) : Dev → Core
  | .sw => b.swc
  | .ep => b.epc

/-- The common blocks of a part replaced. -/
def setCore (b : Blk) (d : Dev) (c : Core) : Blk :=
  match d with
  | .sw => { b with swc := c }
  | .ep => { b with epc := c }

/-- The common blocks of a part changed by a function. -/
def modCore (b : Blk) (d : Dev) (f : Core → Core) : Blk := b.setCore d (f (b.core d))

/-- The switch's own state changed by a function. -/
def modSw (b : Blk) (f : Sw → Sw) : Blk := { b with sw := f b.sw }

/-- The end point's own state changed by a function. -/
def modEp (b : Blk) (f : Ep → Ep) : Blk := { b with ep := f b.ep }

/-- Which part's home state. -/
def home (b : Blk) : Dev → Home
  | .sw => b.sw.home
  | .ep => b.ep.home

def modHome (b : Blk) (d : Dev) (f : Home → Home) : Blk :=
  match d with
  | .sw => b.modSw (fun w => { w with home := f w.home })
  | .ep => b.modEp (fun e => { e with home := f e.home })

/-! ## Registers -/

/-- The value a register holds. -/
def reg (b : Blk) (d : Dev) (off : Nat) : W64 := (b.core d).regs.get off (regReset d off)

/-- A register written whole. -/
def setReg (b : Blk) (d : Dev) (off : Nat) (v : W64) : Blk :=
  b.modCore d (fun c => { c with regs := c.regs.set off v (regReset d off) })

/-- A field of a register. -/
def fld (b : Blk) (d : Dev) (off hi lo : Nat) : Nat := getF (b.reg d off) hi lo

/-- A field of a register written by the part. -/
def setFld (b : Blk) (d : Dev) (off hi lo v : Nat) : Blk := b.setReg d off (setF (b.reg d off) hi lo v)

/-- A one-bit field as a truth value. -/
def flag (b : Blk) (d : Dev) (off n : Nat) : Bool := b.fld d off n n == 1

def setFlag (b : Blk) (d : Dev) (off n : Nat) (v : Bool) : Blk := b.setFld d off n n (b2n v)

/-- A counter field raised, saturating at its largest value. -/
def count (b : Blk) (d : Dev) (off hi lo n : Nat) : Blk :=
  b.setFld d off hi lo (satAdd (hi + 1 - lo) (b.fld d off hi lo) n)

/-- A counter field raised, wrapping. -/
def wrapCount (b : Blk) (d : Dev) (off hi lo n : Nat) : Blk := b.setFld d off hi lo (b.fld d off hi lo + n)

/-- A register written as a number. -/
def putReg (b : Blk) (d : Dev) (off v : Nat) : Blk := b.setReg d off (BitVec.ofNat 64 v)

/-- Consecutive quadwords written from bytes, little-endian (R4). -/
def putBytes (b : Blk) (d : Dev) (off : Nat) (l : List Byte) : Blk :=
  (upto ((l.length + 7) / 8)).foldl (fun b i => b.putReg d (off + 8 * i) (leAt l (8 * i) 8)) b

/-- Bytes of consecutive quadwords. -/
def getBytes (b : Blk) (d : Dev) (off n : Nat) : List Byte :=
  ((upto ((n + 7) / 8)).flatMap (fun i => leBytes 8 (b.reg d (off + 8 * i)).toNat)).take n

/-- One field of a register under a write of v (R6, R9): RW takes a value that is no reserved encoding, W1C clears the bits written
as 1, every other type ignores it. -/
def writeFld (v : Nat) (w : W64) (f : Fld) : W64 :=
  let x := bits v f.hi f.lo
  let cur := getF w f.hi f.lo
  match f.acc with
  | .rw => if f.allows x then setF w f.hi f.lo x else w
  | .w1c => setF w f.hi f.lo (cur - (cur &&& x))
  | _ => w

/-- A register under a write of 8 bytes; reserved bits stay as they are (R8). -/
def writeFields (b : Blk) (d : Dev) (off v : Nat) : Blk := b.setReg d off ((fieldsAt d off).foldl (writeFld v) (b.reg d off))

/-- What a write of `size` bytes at `off` amounts to as a write of the whole register (R441): bits not covered keep an RW field's
value and write 0 to every other type. -/
def wholeWrite (b : Blk) (d : Dev) (off size val : Nat) : Nat :=
  if size = 8 then val % 2 ^ 64
  else
    let r := off - off % 8
    let keep := (fieldsAt d r).foldl (fun a f => if f.acc == .rw then putBits a f.hi f.lo (b.fld d r f.hi f.lo) else a) 0
    if off % 8 = 0 then putBits keep 31 0 val else putBits keep 63 32 val

/-! ## Outputs and free values -/

/-- Something sent. -/
def emit (b : Blk) (e : Emission) : Blk := { b with out := e :: b.out }

/-- The free counter read and advanced. -/
def fresh (b : Blk) : Nat × Blk := (b.free, { b with free := b.free + 1 })

/-- n free bytes. -/
def freshBytes (b : Blk) (n : Nat) : List Byte × Blk :=
  ((upto n).map (fun i => Config.freeByte (b.free + i)), { b with free := b.free + n })

/-! ## Time -/

/-- Elapsed reference time of a part, ns. -/
def now (b : Blk) (d : Dev) : Nat := (b.core d).now

/-- Nanoseconds of the time counter (R482): 64 bits. -/
def timeNs (b : Blk) (d : Dev) : Nat := ((b.core d).tctr >>> 32) % 2 ^ 64

/-- The 16 visible fractional bits (R482). -/
def timeFrac (b : Blk) (d : Dev) : Nat := ((b.core d).tctr >>> 16) % 2 ^ 16

/-- The time stamp of this moment, 64 bits of nanoseconds and 16 of fraction (R482, R485). -/
def stamp (b : Blk) (d : Dev) : Nat := ((b.core d).tctr >>> 16) % 2 ^ 80

/-- The time counter in 64 ns units, the scale of DEADLINE (R36, R58). -/
def time64 (b : Blk) (d : Dev) : Nat := b.timeNs d / 64

/-! ## Ports -/

end Blk

/-- A port before its first link-up. -/
def Port.idle : Port :=
  { rxLast := 0, txNext := 1, replay := [], timerAt := 0, owedAck := false, owedNak := false, partnerAck := 0, credits := [],
    rxHeld := [], owedCr := [], asm := [], cut := none, tx := [], attemptAt := 0, waiting := false, planeBad := false, light := 0, gotNode := false,
    gotPort := false, gotMap := false, qualified := 0, partnerMap := 0, txStripes := [], amSeq := 0, amAt := 0, txAm := 0,
    txAmAt := 0, badMk := [], acted := none, subst := none,
    substPeer := none, substQ := [], loopAt := none, masked := false }

namespace Blk

/-- A port of a part. -/
def port (b : Blk) (d : Dev) (n : Nat) : Port := (b.core d).ports.get n Port.idle

def setPort (b : Blk) (d : Dev) (n : Nat) (p : Port) : Blk :=
  b.modCore d (fun c => { c with ports := c.ports.set n p Port.idle })

def modPort (b : Blk) (d : Dev) (n : Nat) (f : Port → Port) : Blk := b.setPort d n (f (b.port d n))

/-- A fold over the numbers below n. -/
def forBelow (b : Blk) (n : Nat) (f : Blk → Nat → Blk) : Blk := (upto n).foldl f b

/-- A fold over a list. -/
def forEach {α : Type} (b : Blk) (l : List α) (f : Blk → α → Blk) : Blk := l.foldl f b

/-- An operation performed when a condition holds. -/
def when_ (b : Blk) (c : Bool) (f : Blk → Blk) : Blk := if c then f b else b

end Blk

end Sys2Proof.Machine
end

