-- ==== Sys2Proof/Machine/Flags.lean ====
section
/-! DEFINITION. Status bits, interrupts and error records: MSI-X vectors, doorbells, clock events, the READY status, and the
error ring (R434-R436, R448, R451, R460-R464, R501). -/

namespace Sys2Proof.Machine

open Sys2Proof

namespace Blk

/-- Whether the table entry of a vector masks it (R464). -/
def vectorMasked (b : Blk) (d : Dev) (v : Nat) : Bool := b.flag d (offMsixTable + 16 * v + 8) 32

/-- Whether the part can send messages to the host: the link is up and both enables of configuration space are set (log 4). -/
def canSignal (b : Blk) (d : Dev) : Bool := (b.core d).pcieUp && (b.core d).busMaster && (b.core d).msixEn

/-- A vector is sent, or its PBA bit set while it is masked (R464). -/
def sendVector (b : Blk) (d : Dev) (v : Nat) : Blk :=
  if b.vectorMasked d v || !b.canSignal d then b.setFlag d offMsixPba v true else b.emit (.msix d v)

/-- Doorbell `n` rings (R461). -/
def ring (b : Blk) (d : Dev) (n : Nat) : Blk :=
  let b := b.setFlag d offDbStatus n true
  b.when_ (!b.flag d offDbMask n) (fun b => b.sendVector d 1)

/-- An event of CPT_EVENT (R501): a bit that goes from 0 to 1 sends vector 7. -/
def cptEvent (b : Blk) (d : Dev) (n : Nat) : Blk :=
  if b.flag d offCptEvent n then b else (b.setFlag d offCptEvent n true).sendVector d 7

/-- A pending bit (R463): a bit that goes from 0 to 1 sends its vector. -/
def setPending (b : Blk) (d : Dev) (off n vec : Nat) : Blk :=
  if b.flag d off n then b else (b.setFlag d off n true).sendVector d vec

/-- Whether READY reads 1 (R448). -/
def ready (b : Blk) (d : Dev) : Bool := b.flag d offStatus 15

/-- READY brought in line with the BSY bits [14:11], with the doorbells of its changes (R448, R451, R460): bit 5 does not ring on
clock loss. -/
def refreshReady (b : Blk) (d : Dev) (clockLoss : Bool) : Blk :=
  let r := b.fld d offStatus 14 11 == 0
  if r == b.ready d then b
  else if r then (b.setFlag d offStatus 15 true).ring d 4
  else (b.setFlag d offStatus 15 false).when_ (!clockLoss) (fun b => b.ring d 5)

/-- Whether a part's clocks run: out of reset, not stopped by clock loss or thermal shutdown (R479, R499). -/
def clocked (b : Blk) (d : Dev) : Bool :=
  let t := (b.core d).boot
  t.released && !(t.halt == .clockLost) && !(t.halt == .safe)

/-- Whether a part goes on with its work: its clocks run, and it does not wait for PERST_N after clock loss (R480). -/
def inRun (b : Blk) (d : Dev) : Bool := b.clocked d && (b.core d).boot.halt == .none

/-- A host write outside the mailbox region (R452): carried out while READY is 1, dropped and counted otherwise; nothing is served
while the clocks stand. -/
def hostWrite (b : Blk) (d : Dev) (f : Blk → Blk) : Blk :=
  if !b.clocked d then b else if b.ready d then f b else b.count d offRefused 31 0 1

/-- A BSY bit of STATUS written (R448). -/
def setBsy (b : Blk) (d : Dev) (bit : Nat) (v : Bool) : Blk := (b.setFlag d offStatus bit v).refreshReady d false

end Blk

/-- An error record (R434). -/
structure ErrRec where
  cls    : Nat
  source : Nat
  event  : Nat
  action : Nat
  inst   : Nat
  part   : Nat
  detail : Nat
  deriving DecidableEq, Repr

namespace Blk

/-- Bytes 8 to 15 of an error record (R434). -/
def recWord (r : ErrRec) : Nat :=
  r.cls % 256 + r.source % 256 * 2 ^ 8 + r.event % 256 * 2 ^ 16 + r.action % 256 * 2 ^ 24 + r.inst % 65536 * 2 ^ 32 + r.part % 65536 * 2 ^ 48

/-- An error record written in the ring, and the error vector sent after it (R434, R462). -/
def errRecord (b : Blk) (d : Dev) (r : ErrRec) : Blk :=
  let e := b.fld d offErrPtr 31 0
  let base := offErrLog + 0x20 * (e % 256)
  let b := b.putReg d base (b.timeNs d)
  let b := b.putReg d (base + 8) (recWord r)
  let b := b.putReg d (base + 16) e
  let b := b.putReg d (base + 24) r.detail
  (b.setFld d offErrPtr 31 0 (e + 1)).sendVector d 0

/-- The content of record number e completed, unless the ring has overwritten it. -/
def completeRecord (b : Blk) (d : Dev) (e : Nat) (r : ErrRec) : Blk :=
  let age := (b.fld d offErrPtr 31 0 + 2 ^ 32 - e) % 2 ^ 32
  let base := offErrLog + 0x20 * (e % 256)
  if age = 0 ∨ 256 < age then b else (b.putReg d (base + 8) (recWord r)).putReg d (base + 24) r.detail

/-- The marks of a device-fatal event in STATUS: FATAL, ALERT and the source of the first (R448, R14). -/
def markFatal (b : Blk) (d : Dev) (source : Nat) : Blk :=
  let b := if b.flag d offStatus 10 then b else b.setFld d offStatus 7 0 source
  (b.setFlag d offStatus 10 true).setFlag d offStatus 9 true

end Blk

end Sys2Proof.Machine
end

