-- ==== Sys2Proof/Machine/Operands.lean ====
section
/-! DEFINITION. Packets, the operands of most commands: header fields, header and payload checks, what makes a packet malformed,
and how packets are built (R36-R44, R9). -/

namespace Sys2Proof.Machine

open Sys2Proof

/-! ## Fields of a header -/

namespace Packet

def f (p : Packet) (hi lo : Nat) : Nat := bits p.hdr.toNat hi lo
def kind (p : Packet) : Nat := f p 255 254
def tc (p : Packet) : Nat := f p 253 251
def opcode (p : Packet) : Nat := f p 250 245
def part (p : Packet) : Nat := f p 244 233
def keyGen (p : Packet) : Nat := f p 232 232
def plane (p : Packet) : Nat := f p 231 230
def dst (p : Packet) : Nat := f p 229 216
def src (p : Packet) : Nat := f p 215 202
def ctx (p : Packet) : Nat := f p 201 192
def epoch (p : Packet) : Nat := f p 191 188
def seq (p : Packet) : Nat := f p 187 172
def tag (p : Packet) : Nat := f p 171 159
def tagGen (p : Packet) : Nat := f p 158 156
def len (p : Packet) : Nat := f p 155 151
def colour (p : Packet) : Nat := f p 150 149
def cmark (p : Packet) : Nat := f p 148 148
def retry (p : Packet) : Nat := f p 147 147
def hops (p : Packet) : Nat := f p 146 144
def deadline (p : Packet) : Nat := f p 143 128
/-- Lower header of a request (R39). -/
def offset (p : Packet) : Nat := f p 127 84
def opq (p : Packet) : Nat := f p 83 80
def rdBytes (p : Packet) : Nat := f p 79 68 + 1
def reqTally (p : Packet) : Nat := f p 63 52
def reqCplEn (p : Packet) : Nat := f p 51 51
/-- Lower header of a response (R40). -/
def status (p : Packet) : Nat := f p 127 124
def ceEcho (p : Packet) : Nat := f p 123 123
def cplEn (p : Packet) : Nat := f p 122 122
def reqTc3 (p : Packet) : Nat := f p 121 121
def cplCount (p : Packet) : Nat := f p 119 104
def cplTally (p : Packet) : Nat := f p 103 92
/-- Lower header of a collective packet (R41). -/
def collId (p : Packet) : Nat := f p 127 112
def chunk (p : Packet) : Nat := f p 111 92
def member (p : Packet) : Nat := f p 91 78
def frag (p : Packet) : Nat := f p 77 72
def fragLast (p : Packet) : Nat := f p 71 66
def collStatus (p : Packet) : Nat := f p 63 60
def hcrc (p : Packet) : Nat := f p 31 0
/-- Lower header of a DATAGRAM (R41). -/
def frameLen (p : Packet) : Nat := f p 127 114
def dgq (p : Packet) : Nat := f p 113 110
/-- Tail (R43). -/
def tmark (p : Packet) : Nat := bits p.tail.toNat 127 126
def tmReason (p : Packet) : Nat := bits p.tail.toNat 125 122
def check (p : Packet) : Nat := bits p.tail.toNat 95 32

def isLong (p : Packet) : Bool := kind p == 1

/-- A field of the header replaced. -/
def setH (p : Packet) (hi lo v : Nat) : Packet := { p with hdr := BitVec.ofNat 256 (putBits p.hdr.toNat hi lo v) }

/-- Valid payload bytes: LEN + 1 of a short packet, 256 × (LEN + 1) of a long one (R36). -/
def payloadBytes (p : Packet) : Nat := if isLong p then 256 * (len p + 1) else len p + 1

/-- Size in 16 B slots: 4, or 3 + 16 × (LEN + 1) (R46). -/
def slots (p : Packet) : Nat := if isLong p then 3 + 16 * (len p + 1) else 4

/-- Size in bytes. -/
def size (p : Packet) : Nat := 16 * slots p

/-- The payload field as it travels: 32 B, or the whole units of a long packet. -/
def wire (p : Packet) : List Byte := padTo (if isLong p then 256 * (len p + 1) else 32) p.payload

end Packet

/-! ## Checks -/

/-- HCRC over header bits [255:32] with COLOUR, CMARK and HOPS as 0, and over the payload of a short packet (R42). -/
def hcrcOf (hdr : Nat) (short : Bool) (payload : List Byte) : Nat :=
  let h := putBits (putBits hdr 150 148 0) 146 144 0
  crc 32 0x1EDC6F41 ((beBytes 32 h).take 28 ++ (if short then padTo 32 payload else []))

/-- CRC-64 of a payload (R44). -/
def crc64 (l : List Byte) : Nat := crc 64 0x42F0E1EBA9EA3693 l

namespace Packet

def hcrcOk (p : Packet) : Bool := hcrc p == hcrcOf p.hdr.toNat (!isLong p) p.payload

/-- Whether the CHECK of a long packet holds; collective contributions and partials are checked by chunk (R44). -/
def checkOk (p : Packet) : Bool := !isLong p || opcode p == 0x20 || opcode p == 0x21 || check p == crc64 (wire p)

def tailMarked (p : Packet) : Bool := isLong p && tmark p != 0

end Packet

/-- Classes and forms of an opcode (R38): classes allowed, short allowed, long allowed, DEADLINE carried. -/
def opcodeRow (op : Nat) : Option (List Nat × Bool × Bool × Bool) :=
  if op = 0x02 then some ([1, 3], true, true, true)
  else if op = 0x03 then some ([1, 3], true, false, true)
  else if 0x01 ≤ op ∧ op ≤ 0x0C then some ([1], true, false, true)
  else if op = 0x10 then some ([2], true, true, true)
  else if op = 0x11 ∨ op = 0x12 then some ([2], true, false, true)
  else if 0x18 ≤ op ∧ op ≤ 0x1A then some ([0], true, false, true)
  else if op = 0x20 ∨ op = 0x21 then some ([4], false, true, false)
  else if op = 0x22 then some ([4], true, true, false)
  else if op = 0x23 then some ([5], true, false, false)
  else if op = 0x24 then some ([5], false, true, false)
  else if 0x25 ≤ op ∧ op ≤ 0x27 then some ([0], true, false, false)
  else if op = 0x30 ∨ op = 0x31 then some ([6], true, false, false)
  else if op = 0x32 then some ([6], true, true, false)
  else if op = 0x38 then some ([7], false, true, false)
  else none

/-- Whether the payload of a collective packet breaks its layout: tags not below 2^61 - 1 (R197), reserved exponent entries or an odd
number of bytes (R187), reserved fields of COLL_SCREED (R190), a control packet that is not 32 B long or has reserved bytes set (R222). -/
def Packet.collBad (p : Packet) : Bool :=
  let op := Packet.opcode p
  let n := Packet.payloadBytes p
  let entryOk := fun x : Nat => x == 0x8000 || x == 0x7FFF || decide (0xFF6B ≤ x) || decide (x ≤ 0x85)
  if op = 0x20 ∨ op = 0x21 then decide (2 ^ 61 - 1 ≤ Packet.check p)
  else if op = 0x22 then n % 2 == 1 || (upto (n / 2)).any (fun j => !entryOk (beNat (slice p.payload (2 * j) 2)))
  else if op = 0x23 then
    n != 4 || !(let q := beNat (slice p.payload 0 2); decide (q ≤ 1023) || decide (64512 ≤ q)) || decide (3 ≤ leAt p.payload 2 1)
      || decide (6 ≤ leAt p.payload 3 1)
  else if 0x25 ≤ op ∧ op ≤ 0x27 then n != 32 || leAt p.payload 2 2 != 0
  else false

/-- Whether a packet carries a reserved encoding in a defined field of its header or tail, or breaks its opcode's row (R9, R36,
R38-R41, R43), a reserved field of a topcoat's payload (R75), the operation of a coherence packet (R127), the CTL of a collective control packet (R222) and the kind of a MGMT packet (R491) among them. -/
def Packet.malformed (p : Packet) : Bool :=
  let op := Packet.opcode p
  match opcodeRow op with
  | none => true
  | some (tcs, sh, lg, _) =>
    2 ≤ Packet.kind p || !(tcs.contains (Packet.tc p)) || (Packet.isLong p && !lg) || (!Packet.isLong p && !sh)
    || (if Packet.tc p == 6 then Packet.part p != 0 else Packet.part p == 0 || Packet.part p == 0xFFF)
    || (Packet.isLong p && 16 ≤ Packet.len p) || Packet.colour p == 3
    || (1 ≤ op && op ≤ 0x0C && 6 ≤ Packet.opq p)
    || (op == 0x03 && leAt p.payload 2 6 != 0)
    || (0x18 ≤ op && op ≤ 0x1A && (Packet.f p 83 80 != op - 0x17 || Packet.f p 89 84 != 0))
    || (0x10 ≤ op && op ≤ 0x12 && 14 ≤ Packet.status p)
    || (op == 0x11 && (Packet.cplCount p == 0 || 16384 < Packet.cplCount p))
    || (0x20 ≤ op && op ≤ 0x27 && (Packet.fragLast p < Packet.frag p || 14 ≤ Packet.collStatus p))
    || (op == 0x25 && (leAt p.payload 0 1 == 0 || 7 < leAt p.payload 0 1))
    || (op == 0x26 && (leAt p.payload 0 1 == 0 || 4 < leAt p.payload 0 1))
    || (op == 0x27 && leAt p.payload 0 1 != 1)
    || (op == 0x32 && (Packet.isLong p || Packet.f p 127 120 != 1))
    || (op == 0x38 && (Packet.frameLen p < 60 || 4096 < Packet.frameLen p || Packet.payloadBytes p < Packet.frameLen p))
    || (Packet.isLong p && (2 ≤ Packet.tmark p || 4 ≤ Packet.tmReason p)) || Packet.collBad p

/-! ## Building packets -/

/-- The fields of a header to be built (R36); `low` is bits [127:32]. -/
structure HdrF where
  tc       : Nat
  opcode   : Nat
  part     : Nat
  keyGen   : Nat := 0
  plane    : Nat
  dst      : Nat
  src      : Nat
  ctx      : Nat := 0
  epoch    : Nat := 0
  seq      : Nat := 0
  tag      : Nat := 0
  tagGen   : Nat := 0
  cmark    : Nat := 0
  retry    : Nat := 0
  deadline : Nat := 0
  low      : Nat := 0
  deriving DecidableEq, Repr

/-- A packet of the given form: `n` valid payload bytes in a short packet, whole units in a long one; `tag` is the CHECK of a
collective contribution or partial, CRC-64 otherwise (R36, R42-R44). -/
def mkPacket (h : HdrF) (long : Bool) (payload : List Byte) (tagCheck : Option Nat := none) : Packet :=
  let units := (payload.length + 255) / 256
  let len := if long then units - 1 else payload.length - 1
  let pl := padTo (if long then 256 * units else 32) payload
  let w := packBits [(2, b2n long), (3, h.tc), (6, h.opcode), (12, h.part), (1, h.keyGen), (2, h.plane), (14, h.dst), (14, h.src),
    (10, h.ctx), (4, h.epoch), (16, h.seq), (13, h.tag), (3, h.tagGen), (5, len), (2, 0), (1, h.cmark), (1, h.retry), (3, 0),
    (16, h.deadline), (96, h.low), (32, 0)]
  let hdr := w + hcrcOf w (!long) pl
  let chk := match tagCheck with
    | some t => t
    | none => crc64 pl
  { hdr := BitVec.ofNat 256 hdr, payload := pl, tail := if long then BitVec.ofNat 128 ((chk % 2 ^ 64) * 2 ^ 32) else 0 }

/-- The lower header of a request (R39). -/
def lowRequest (off opq rdBytesM1 tally : Nat) (en : Bool) : Nat :=
  packBits [(44, off), (4, opq), (12, rdBytesM1), (4, 0), (12, tally), (1, b2n en), (19, 0)]

/-- The lower header of a response (R40). -/
def lowResponse (status ce : Nat) (en tc3 : Bool) (count tally : Nat) : Nat :=
  packBits [(4, status), (1, ce), (1, b2n en), (1, b2n tc3), (1, 0), (16, count), (12, tally), (60, 0)]

/-- The lower header of a collective packet (R41). -/
def lowColl (id chunk member frag fragLast status : Nat) : Nat :=
  packBits [(16, id), (20, chunk), (14, member), (6, frag), (6, fragLast), (2, 0), (4, status), (28, 0)]

/-- A deadline in 64 ns units (R58). -/
def setDeadline (tNs lNs : Nat) : Nat := ((tNs + lNs + 63) / 64) % 65536

/-- Whether a deadline has been reached (R58). -/
def expired (nowNs deadline : Nat) : Bool := decide ((nowNs / 64 + 65536 - deadline % 65536) % 65536 < 32768)

/-- Lifetime of a level in ns: 0 island or pod, 1 row, 2 hall (R57). -/
def lifetime (level : Nat) : Nat := if level = 0 then 20000 else if level = 1 then 60000 else 200000

/-- A lifetime in 64 ns units (R57). -/
def lifetime64 (level : Nat) : Nat := if level = 0 then 313 else if level = 1 then 938 else 3125

/-! ## Completion status (R11, R12) -/

/-- Rank of a status in the order of R12; OK stands last. -/
def statusRank (c : Nat) : Nat :=
  match c with
  | 0x8 => 0 | 0x1 => 1 | 0x2 => 2 | 0x3 => 3 | 0x4 => 4 | 0x5 => 5 | 0xD => 6 | 0x6 => 7 | 0x7 => 8 | 0xC => 9 | 0xA => 10
  | 0xB => 11 | 0x9 => 12 | _ => 13

/-- The status reported when several apply (R12). -/
def firstStatus (l : List Nat) : Nat := l.foldl (fun a c => if statusRank c < statusRank a then c else a) 0

/-! ## Fabric addresses (R32) -/

def addrNode (a : Nat) : Nat := bits a 57 44
def addrOff (a : Nat) : Nat := bits a 43 0

namespace Packet

/-- Size of a value by OPQ (R39). -/
def opqSize (p : Packet) : Nat :=
  match opq p with
  | 0 => 4 | 1 => 8 | 2 => 4 | 3 => 8 | 4 => 4 | _ => 16

/-- Bytes of memory a request addresses. -/
def reqBytes (p : Packet) : Nat :=
  if opcode p = 1 then rdBytes p
  else if opcode p = 2 then payloadBytes p
  else if opcode p = 3 then (if len p = 15 then 8 else 4)
  else opqSize p

end Packet

end Sys2Proof.Machine
end

