-- ==== Sys2Proof/Machine/Buffer.lean ====
section
/-! DEFINITION. The switch's tables as the lath image loaded them, and the packet buffer: stored copies, cells, reserves, credits and
virtual output queues (R254-R261, R273). -/

namespace Sys2Proof.Machine

open Sys2Proof

/-- Internal sources of VOQs (R259). -/
def srcHome : Nat := 72
def srcColl : Nat := 73
def srcMgmt : Nat := 74
def srcAnswer : Nat := 75

/-- Number of cells a packet occupies (R254). -/
def Packet.cells (p : Packet) : Nat := if Packet.isLong p then 4 * (Packet.len p + 1) + 1 else 1

/-- Whether a packet is whole: a long one given with fewer payload bytes than its LEN says is still arriving (R269). -/
def Packet.whole (p : Packet) : Bool := !Packet.isLong p || decide (256 * (Packet.len p + 1) ≤ p.payload.length)

/-- Slots of a packet that have arrived: header, then payload (R46). -/
def Packet.slotsHere (p : Packet) : Nat := if Packet.whole p then Packet.slots p else 2 + p.payload.length / 16

/-- A packet with one more slot: payload, or the tail when `i` is its last. -/
def Packet.addSlot (p : Packet) (i : Nat) (x : BitVec 128) : Packet :=
  if i + 1 = Packet.slots p then { p with tail := x } else { p with payload := p.payload ++ beBytes 16 x.toNat }

namespace Blk

/-! ## Tables of the lath image -/

/-- A quadword of a partition entry (R342). -/
def partQ (b : Blk) (i q : Nat) : Nat := (b.reg .sw (offPartCfg i q)).toNat

def partValid (b : Blk) (i : Nat) : Bool := bitOf (b.partQ i 0) 63
def partMasked (b : Blk) (i : Nat) : Bool := b.partValid i && bitOf (b.partQ i 0) 62
def partId (b : Blk) (i : Nat) : Nat := bits (b.partQ i 0) 55 44
def partQset (b : Blk) (i : Nat) : Nat := bits (b.partQ i 0) 43 39
def partFirstSlot (b : Blk) (i : Nat) : Nat := bits (b.partQ i 0) 38 29
def partNslots (b : Blk) (i : Nat) : Nat := bits (b.partQ i 0) 28 18
/-- PORTS, 72 bits. -/
def partPorts (b : Blk) (i : Nat) : Nat := b.partQ i 1 + bits (b.partQ i 2) 7 0 * 2 ^ 64
def partRmem (b : Blk) (i : Nat) : Nat := bits (b.partQ i 2) 23 8
/-- ENGINES, 72 bits. -/
def partEngines (b : Blk) (i : Nat) : Nat := b.partQ i 3 + bits (b.partQ i 4) 7 0 * 2 ^ 64

/-- Local index of a partition in force (R342). -/
def partIndex (b : Blk) (pid : Nat) : Option Nat := (upto 64).find? (fun i => b.partValid i && b.partId i == pid)

/-- QSET of a partition; QSET 0 carries partition 0x000 (R259). -/
def qsetOf (b : Blk) (pid : Nat) : Nat :=
  match b.partIndex pid with
  | some i => b.partQset i
  | none => 0

/-- Whether a port carries a partition; 0x000 is carried on every port (R248). -/
def carries (b : Blk) (port pid : Nat) : Bool :=
  if pid = 0 then true
  else match b.partIndex pid with
    | some i => bitOf (b.partPorts i) port
    | none => false

/-- Whether a partition is masked. -/
def pidMasked (b : Blk) (pid : Nat) : Bool :=
  match b.partIndex pid with
  | some i => b.partMasked i
  | none => false

/-- Whether any masked partition exists (R377). -/
def anyMasked (b : Blk) : Bool := (upto 64).any (fun i => b.partMasked i)

/-- PSTATE of a local index (R467). -/
def pstate (b : Blk) (i : Nat) : Nat := b.fld .sw (offPartState i) 1 0

/-- One value of a QSET's own generator (R276, R279). -/
def rand (b : Blk) (qset : Nat) : Nat × Blk :=
  let n := b.sw.rand.get qset 0
  ((Config.rand16 qset n).toNat, b.modSw (fun s => { s with rand := s.rand.set qset (n + 1) 0 }))

/-- Whether a partition is ABORTING or ABORTED (R469). -/
def pidAborted (b : Blk) (pid : Nat) : Bool :=
  match b.partIndex pid with
  | some i => b.pstate i == 2 || b.pstate i == 3
  | none => false

/-- Plane of the switch (R341). -/
def swPlane (b : Blk) : Nat := b.fld .sw offLathGlobal 63 62

/-- Node of the switch, if it has one (R341). -/
def swNode (b : Blk) : Option Nat := if b.flag .sw offLathGlobal 61 then some (b.fld .sw offLathGlobal 60 47) else none

/-- The lifetime level between a node and the switch's own node (R96, R283). -/
def levelTo (b : Blk) (node : Nat) : Nat := b.fld .sw (offRoute node) 59 58

/-! ## Counters of a partition (R304) -/

def partCount (b : Blk) (pid c k n : Nat) : Blk :=
  match b.partIndex pid with
  | some i => b.wrapCount .sw (offPartCnt i c k) 63 0 n
  | none => b

/-- A packet of a partition discarded or dropped, counted in its DROPS. -/
def countDrop (b : Blk) (p : Packet) : Blk := b.partCount (Packet.part p) (Packet.tc p) 4 1

/-! ## Link state of a port -/

def lstate (b : Blk) (d : Dev) (n : Nat) : Nat := b.fld d (offPort d n 0) 63 60

def live (b : Blk) (d : Dev) (n : Nat) : Bool := b.flag d (offPort d n 0) 48

/-! ## Cells and credits -/

/-- FREE of SW_PBUF_STATUS (R258): cells given back or taken. -/
def moveFree (b : Blk) (n : Nat) (give : Bool) : Blk :=
  let free := b.fld .sw offPbuf 21 0
  b.setFld .sw offPbuf 21 0 (if give then free + n else free - n)

/-- Cells of a reserve or carve changed: taken when `give` is false, freed when it is true; FREE of SW_PBUF_STATUS follows. -/
def moveCells (b : Blk) (w : Reserve) (src tc n : Nat) (give : Bool) : Blk :=
  let ch := fun x : Nat => if give then x - n else x + n
  let b := b.modSw (fun s =>
    match w with
    | .carve => { s with cells := s.cells.set (8 * src + tc) (ch (s.cells.get (8 * src + tc) 0)) 0 }
    | .answer => { s with ansCells := s.ansCells.set src (ch (s.ansCells.get src 0)) 0 }
    | .internal => { s with intCells := s.intCells.set src (ch (s.intCells.get src 0)) 0 }
    | .refill => { s with refillCells := ch s.refillCells }
    | .hbm => s
    | .rmem => s)
  match w with
  | .hbm => b
  | .rmem => b
  | _ => b.moveFree n give

/-- Credits of a class owed to a port's partner (R51, R258). -/
def owe (b : Blk) (d : Dev) (port tc slots : Nat) : Blk :=
  if tc < 7 then
    b.modPort d port (fun p => { p with rxHeld := p.rxHeld.set tc (p.rxHeld.get tc 0 - slots) 0,
                                        owedCr := p.owedCr.set tc (p.owedCr.get tc 0 + slots) 0 })
  else b

/-- What freeing a stored copy's cells does: cells go back, and credits to the ingress port for the carve (R258). -/
def freeCopy (b : Blk) (c : Copy) : Blk :=
  let b := { b with sw := { b.sw with copies := b.sw.copies.filter (fun x => !(x.id == c.id)) } }
  let b := b.moveCells c.where_ c.src (Packet.tc c.pkt) c.cells true
  match c.where_ with
  | .carve => b.owe .sw c.src (Packet.tc c.pkt) (Packet.slots c.pkt)
  | _ => b

def findCopy (b : Blk) (id : Nat) : Option Copy := b.sw.copies.find? (fun c => c.id == id)

def updCopy (b : Blk) (id : Nat) (f : Copy → Copy) : Blk :=
  b.modSw (fun s => { s with copies := mapFirst (fun c => c.id == id) f s.copies })

/-- The reference count of a stored copy falls by one; at 0 its cells are freed (R273). -/
def unref (b : Blk) (id : Nat) : Blk :=
  match b.findCopy id with
  | none => b
  | some c => if c.refs ≤ 1 then b.freeCopy c else b.updCopy id (fun c => { c with refs := c.refs - 1 })

/-- A new stored copy, its cells taken; answers its number. -/
def storeCopy (b : Blk) (p : Packet) (src qset cells refs : Nat) (w : Reserve) : Nat × Blk :=
  let id := b.sw.nextCopy
  let c : Copy := { id := id, pkt := p, src := src, qset := qset, part := Packet.part p, cells := cells, refs := refs,
                    have_ := Packet.slotsHere p, stamp := b.stamp .sw, where_ := w, bad := none, asked := none, depths := [] }
  (id, (b.modSw (fun s => { s with copies := s.copies ++ [c], nextCopy := id + 1 })).moveCells w src (Packet.tc p) cells false)

/-! ## Queues -/

/-- A queue entry's field (R261). -/
def queueFld (b : Blk) (k : VoqKey) (hi lo : Nat) : Nat := b.fld .sw (offQueue k.eq k.qset k.tc) hi lo

def voq (b : Blk) (k : VoqKey) : Voq :=
  match b.sw.voqs.find? (fun q => q.key = k) with
  | some q => q
  | none => { key := k, ents := [], avg := 0 }

def copyCells (b : Blk) (id : Nat) : Nat :=
  match b.findCopy id with
  | some c => Packet.cells c.pkt
  | none => 0

def copyInHbm (b : Blk) (id : Nat) : Bool :=
  match b.findCopy id with
  | some c => c.where_ == .hbm
  | none => false

/-- Depth of a VOQ in cells, in the buffer and in HBM (R276, R279). -/
def voqDepth (b : Blk) (k : VoqKey) : Nat := (b.voq k).ents.foldl (fun a id => a + b.copyCells id) 0

/-- Whether a QSET belongs to a masked partition. -/
def qsetMasked (b : Blk) (qset : Nat) : Bool := (upto 64).any (fun i => b.partMasked i && b.partQset i == qset)

/-- Depth of the queues of an egress and class, over every source and every QSET of no masked partition (R295). -/
def egressDepth (b : Blk) (eq tc : Nat) : Nat :=
  (b.sw.voqs.filter (fun q => q.key.eq == eq && q.key.tc == tc && !b.qsetMasked q.key.qset)).foldl (fun a q =>
    a + q.ents.foldl (fun a id => a + b.copyCells id) 0) 0

/-! ## Calendars (R263, R349, R350) -/

/-- A byte of the CALENDAR section. -/
def calByte (b : Blk) (i : Nat) : Nat := bits (b.reg .sw (offCalendar + 8 * (i / 8))).toNat (8 * (i % 8) + 7) (8 * (i % 8))

/-- Calendar of an egress; 0xFF for none. -/
def calOf (b : Blk) (eq : Nat) : Nat := if b.flag .sw offLathStatus 4 then b.calByte eq else 0xFF

/-- Header of a calendar: slots and slot time in ns. -/
def calHead (b : Blk) (c : Nat) : Nat × Nat :=
  let h := (b.reg .sw (offCalendar + 128 + 8 * c)).toNat
  (bits h 62 53 + 1, 10 * bits h 52 41)

/-- Owner of slot k of a calendar; 0xFF for OPEN. -/
def calOwner (b : Blk) (c k : Nat) : Nat := b.calByte (256 + 1024 * c + k)

/-- Time before t that a calendar spends in slots no QSET owns, ns. -/
def openTime (b : Blk) (c t : Nat) : Nat :=
  let (len, st) := b.calHead c
  let per := len * st
  if per = 0 then t
  else
    let open_ := (upto len).filter (fun k => b.calOwner c k == 0xFF)
    t / per * (open_.length * st) + open_.foldl (fun a k => a + min st (t % per - k * st)) 0

/-- The clock of the time over which a port's shares are taken: calendar slots owned by masked QSETs left out (R295). -/
def openClock (b : Blk) (port : Nat) : Nat :=
  let c := b.calOf port
  if 16 ≤ c then b.timeNs .sw else b.openTime c (b.timeNs .sw)

/-! ## Gathering for the congestion maps (R295) -/

/-- Whether a port holds a packet of a lossless class without the credits to start it, queues of masked QSETs left out. -/
def lacksCredit (b : Blk) (eq tc : Nat) : Bool :=
  decide (tc < 7) && b.sw.voqs.any (fun q => q.key.eq == eq && q.key.tc == tc && !b.qsetMasked q.key.qset &&
    (match q.ents with
     | [] => false
     | id :: _ => match b.findCopy id with
       | some c => decide ((b.port .sw eq).credits.get tc 0 < Packet.slots c.pkt)
       | none => false))

/-- The congestion map's gathering for an egress and class brought up to date, one sample of the depth every 64 ns (R295). -/
def cmapTouch (b : Blk) (eq tc : Nat) : Blk :=
  if eq < 72 ∧ b.flag .sw offCmapCtl 16 = true then
    let key := 8 * eq + tc
    let a := b.sw.cmap.get key CmapAcc.zero
    let t := b.now .sw / 64
    let n := t - max a.lastAt (b.sw.cmapFrom / 64)
    let d := b.egressDepth eq tc
    let clk := b.openClock eq
    let a' := { a with depth := d, maxD := max a.maxD d, sum := a.sum + n * a.depth, samples := a.samples + n, lastAt := t,
                       lack := b.lacksCredit eq tc, lackAt := clk, lackNs := if a.lack then a.lackNs + (clk - a.lackAt) else a.lackNs }
    b.modSw (fun s => { s with cmap := s.cmap.set key a' CmapAcc.zero })
  else b

/-- A queue stored; a queue that holds nothing and has no average is not listed. -/
def putVoq (b : Blk) (q : Voq) : Blk :=
  let rest := b.sw.voqs.filter (fun x => !(x.key = q.key))
  let b := b.modSw (fun s => { s with voqs := if q.ents.isEmpty && q.avg == 0 then rest else rest ++ [q] })
  b.cmapTouch q.key.eq q.key.tc

/-- Depth of a VOQ in the buffer alone (R266). -/
def voqBufDepth (b : Blk) (k : VoqKey) : Nat :=
  (b.voq k).ents.foldl (fun a id => if b.copyInHbm id then a else a + b.copyCells id) 0

/-- Whether a VOQ holds packets in HBM. -/
def voqInHbm (b : Blk) (k : VoqKey) : Bool := (b.voq k).ents.any b.copyInHbm

/-- Bytes all VOQs of a queue hold in HBM (R267). -/
def queueHbmBytes (b : Blk) (k : VoqKey) : Nat :=
  (b.sw.voqs.filter (fun q => q.key.eq == k.eq && q.key.qset == k.qset && q.key.tc == k.tc)).foldl (fun a q =>
    a + q.ents.foldl (fun a id => if b.copyInHbm id then a + 64 * b.copyCells id else a) 0) 0

/-- Bytes in the overflow carve. -/
def hbmBytes (b : Blk) : Nat :=
  b.sw.copies.foldl (fun a c => if c.where_ == .hbm then a + 64 * Packet.cells c.pkt else a) 0

def hasFlag (b : Blk) (k : VoqKey) (bit : Nat) : Bool := b.queueFld k bit bit == 1

end Blk

end Sys2Proof.Machine
end

