-- ==== Sys2Proof/Machine/Link.lean ====
section
/-! DEFINITION. Flits and the sending side of the link layer: how slots are packed, stripes and markers, acknowledgement, replay and
credits (R46-R51, R270, R403, R405). Receiving stands in Machine/Receive.lean. -/

namespace Sys2Proof.Machine

open Sys2Proof

/-! ## Flits (R46) -/

namespace Flit

def f (x : Flit) (hi lo : Nat) : Nat := bits x.toNat hi lo
def lseq (x : Flit) : Nat := f x 2047 2036
def ackSeq (x : Flit) : Nat := f x 2035 2024
def ackV (x : Flit) : Bool := f x 2023 2023 == 1
def nak (x : Flit) : Bool := f x 2022 2022 == 1
def ftype (x : Flit) : Nat := f x 2021 2020
def start (x : Flit) : Nat := f x 2019 2005
def crTc (x : Flit) : Nat := f x 2004 2002
def crV (x : Flit) : Bool := f x 2001 2001 == 1
def crCount (x : Flit) : Nat := f x 2000 1989
/-- Slot i, 0-14; slot 0 is sent first. -/
def slot (x : Flit) (i : Nat) : BitVec 128 := BitVec.ofNat 128 (f x (1983 - 128 * i) (1856 - 128 * i))

/-- FCRC over bits [2047:64] (R46). -/
def fcrcOf (x : Nat) : Nat := crc64 (beBytes 248 (x >>> 64))

def fcrcOk (x : Flit) : Bool := f x 63 0 == fcrcOf x.toNat

/-- Stripe s of a flit (R403): an eighth of it at width 8, a quarter at width 4, from the most significant end. -/
def stripe (x : Flit) (width s : Nat) : Nat := f x (2047 - 2048 / width * s) (2048 - 2048 / width * (s + 1))

/-- The flit rebuilt from its stripes, stripe 0 first (R403). -/
def ofStripes (width : Nat) (l : List Nat) : Flit := BitVec.ofNat 2048 (packBits (l.map (fun v => (2048 / width, v))))

end Flit

/-- A flit built from its header fields and slots (R46). -/
def mkFlit (lseq ack : Nat) (nak : Bool) (ftype start crTc : Nat) (crV : Bool) (crCount : Nat) (slots : List (BitVec 128)) : Flit :=
  let head := packBits [(12, lseq), (12, ack), (1, 1), (1, b2n nak), (2, ftype), (15, start), (3, crTc), (1, b2n crV),
    (12, crCount), (5, 0)]
  let body := ((upto 15).map (fun i => (128, (slots.getD i 0#128).toNat)))
  let x := packBits ([(64, head)] ++ body ++ [(64, 0)])
  BitVec.ofNat 2048 (x + Flit.fcrcOf x)

/-- A packet's slots in the order they are sent (R36, R43, R46). -/
def Packet.toSlots (p : Packet) : List (BitVec 128) :=
  let bytes := beBytes 32 p.hdr.toNat ++ Packet.wire p ++ (if Packet.isLong p then beBytes 16 p.tail.toNat else [])
  (upto (Packet.slots p)).map (fun i => BitVec.ofNat 128 (beNat (slice bytes (16 * i) 16)))

/-- Slots the packet whose header stands in the first two slots takes. -/
def slotsNeeded (l : List (BitVec 128)) : Nat :=
  let h := (l.getD 0 0#128).toNat
  if bits h 127 126 = 1 then 3 + 16 * (bits h 27 23 + 1) else 4

/-- The packet that whole slots spell. -/
def ofSlots (l : List (BitVec 128)) : Packet :=
  let bytes := l.flatMap (fun s => beBytes 16 s.toNat)
  let long := bits (l.getD 0 0#128).toNat 127 126 == 1
  let n := bytes.length
  { hdr := BitVec.ofNat 256 (beNat (bytes.take 32)),
    payload := if long then (bytes.drop 32).take (n - 48) else bytes.drop 32,
    tail := if long then BitVec.ofNat 128 (beNat (bytes.drop (n - 16))) else 0 }

/-! ## Time messages on a link (R488) -/

/-- Whether a packet is a link-local TIME_SYNC or TIME_REPLY. -/
def Packet.linkLocal (p : Packet) : Bool := (Packet.opcode p == 0x30 || Packet.opcode p == 0x31) && Packet.f p 111 111 == 1

/-- The HCRC of a packet computed afresh. -/
def Packet.reseal (p : Packet) : Packet :=
  let h := putBits p.hdr.toNat 31 0 0
  { p with hdr := BitVec.ofNat 256 (h + hcrcOf h (!Packet.isLong p) p.payload) }

namespace Blk

/-- A packet as it leaves the part that made it: a TIME_REPLY takes its departure stamp T3 into payload bytes 10-19 (R488, R490). -/
def departing (b : Blk) (d : Dev) (p : Packet) : Packet :=
  if Packet.opcode p == 0x31 && (Packet.linkLocal p || Packet.hops p == 0) then
    Packet.reseal { p with payload := overlay p.payload 10 (beBytes 10 (b.stamp d)) }
  else p

/-- T1 of an outstanding TIME_SYNC, stamped as it leaves (R489). -/
def noteDeparture (b : Blk) (d : Dev) (p : Packet) : Blk :=
  if Packet.linkLocal p && Packet.opcode p == 0x30 then
    let t := b.stamp d
    b.modCore d (fun c => { c with servo := { c.servo with sync := c.servo.sync.map (fun s =>
      if s.id == Packet.f p 127 112 then { s with t1 := t, at_ := c.now } else s) } })
  else b

end Blk

/-! ## Sending (R47, R48, R51, R270) -/

/-- What a flit has taken so far: its slots, START bits, the packets still to send, credits left, copies finished, departures. -/
structure Fill where
  slots   : List (BitVec 128)
  start   : Nat
  tx      : List TxPkt
  credits : Tbl Nat
  done    : List Nat
  begun   : List Packet
  deriving DecidableEq, Repr

/-- The packet that may start: the first with the credits for all its slots; TC7 needs none (R51). -/
def nextToStart (credits : Tbl Nat) (tx : List TxPkt) : Option TxPkt :=
  tx.find? (fun t => Packet.tc t.pkt == 7 || decide (Packet.slots t.pkt ≤ credits.get (Packet.tc t.pkt) 0))

/-- Whether the next slot of a packet in progress is there to be sent (R270); a copy found bad is finished without what has not arrived. -/
def TxPkt.slotThere (t : TxPkt) : Bool := decide (t.sent < t.have_) || t.bad.isSome

/-- Remove one packet from the list by identity of its contents. -/
def dropTx (t : TxPkt) : List TxPkt → List TxPkt
  | [] => []
  | x :: r => if x = t then r else x :: dropTx t r

/-- Slots of a copy in progress: what remains of a copy found bad is zero payload and a marked tail, whose CHECK is the one received, or 0
while the tail had not arrived (R271). -/
def TxPkt.slotAt (t : TxPkt) (i : Nat) : BitVec 128 :=
  match t.bad with
  | none => (Packet.toSlots t.pkt).getD i 0#128
  | some r =>
    if i + 1 = Packet.slots t.pkt then
      BitVec.ofNat 128 (packBits [(2, 1), (4, r), (26, 0), (64, if Packet.slots t.pkt ≤ t.have_ then Packet.check t.pkt else 0), (32, 0)])
    else 0#128

/-- Slots put into a flit one after the other, at most `fuel` more: a packet in progress goes on as far as it has arrived; otherwise one with credits
starts, a link-local time message only in slot 0 of the flit (R488). -/
def fillSlots (dep : Packet → Packet) : Nat → Fill → Fill
  | 0, st => st
  | fuel + 1, st =>
    match st.tx.find? (fun t => decide (0 < t.sent)) with
    | some t =>
      if !TxPkt.slotThere t then st else
      let rest := dropTx t st.tx
      let s := TxPkt.slotAt t t.sent
      let st' := { st with slots := st.slots ++ [s] }
      if t.sent + 1 = Packet.slots t.pkt then
        fillSlots dep fuel { st' with tx := rest, done := st.done ++ (match t.copy with | some c => [c] | none => []) }
      else fillSlots dep fuel { st' with tx := { t with sent := t.sent + 1 } :: rest }
    | none =>
      match nextToStart st.credits st.tx with
      | none => st
      | some t =>
        if Packet.linkLocal t.pkt && !st.slots.isEmpty then st
        else
          let pk := dep t.pkt
          let tc := Packet.tc pk
          let st' := { st with slots := st.slots ++ [(Packet.toSlots pk).getD 0 0#128],
                               start := st.start + 2 ^ st.slots.length, begun := st.begun ++ [pk],
                               tx := { t with pkt := pk, sent := 1 } :: dropTx t st.tx,
                               credits := if tc = 7 then st.credits
                                 else st.credits.set tc (st.credits.get tc 0 - Packet.slots pk) 0 }
          fillSlots dep fuel st'

/-- The first class with credits to return, and how many one flit can carry. -/
def creditToSend (owed : Tbl Nat) : Option (Nat × Nat) :=
  (upto 7).findSome? (fun tc => let n := owed.get tc 0; if n = 0 then none else some (tc, min n 4095))

namespace Blk

/-- One flit sent by a port that is UP: a DATA flit when slots can be sent and fewer than 4,095 are unacknowledged, a CTRL flit
otherwise. Either carries the acknowledgement, a NAK that is owed, and credits of one class. Whether a CTRL flit reaches the partner with a
good FCRC is decided outside: `lost` is a free value, and the credits of a lost one stay owed, to be carried by a later flit (R47, log 131).
-/
def sendFlit (b : Blk) (d : Dev) (n : Nat) : Blk :=
  let p := b.port d n
  let st : Fill := if p.replay.length < 4095 then
      fillSlots (b.departing d) 15 { slots := [], start := 0, tx := p.tx, credits := p.credits, done := [], begun := [] }
    else { slots := [], start := 0, tx := p.tx, credits := p.credits, done := [], begun := [] }
  let cr := creditToSend p.owedCr
  let (crTc, crN) : Nat × Nat := cr.getD (0, 0)
  let data := !st.slots.isEmpty
  let lost := !data && cr.isSome && Config.freeNat b.free % 2 == 1
  let b := if !data && cr.isSome then b.fresh.2 else b
  let fl := mkFlit (if data then p.txNext else 0) p.rxLast p.owedNak (b2n (!data)) st.start crTc cr.isSome crN st.slots
  let t := b.now d
  let cont := (p.tx.find? (fun x => decide (0 < x.sent))).map (fun x => (Packet.part x.pkt, Packet.tc x.pkt))
  let p' : Port := { p with
    tx := st.tx, credits := st.credits, owedAck := false, owedNak := false,
    owedCr := if cr.isSome && !lost then p.owedCr.set crTc (p.owedCr.get crTc 0 - crN) 0 else p.owedCr,
    txNext := if data then (p.txNext + 1) % 4096 else p.txNext,
    replay := if data then p.replay ++ [{ lseq := p.txNext, flit := fl, at_ := t, cont := cont }] else p.replay,
    timerAt := if data && p.replay.isEmpty then t else p.timerAt }
  let b := (b.setPort d n p').emit (.flit d n fl)
  let b := b.forEach st.begun (fun b pk => b.noteDeparture d pk)
  match d with
  | .sw => (b.forEach (upto 7) (fun b tc => if st.credits.get tc 0 = p.credits.get tc 0 then b else b.cmapTouch n tc)).forEach st.done
      (fun b id => b.unref id)
  | .ep => b

/-! ## Acknowledgement and replay (R47) -/

/-- Held flits up to the acknowledged one removed; the replay timer restarts when the acknowledgement advances (R47). -/
def takeAck (b : Blk) (d : Dev) (n : Nat) (fl : Flit) : Blk :=
  let p := b.port d n
  if Flit.ackV fl && p.replay.any (fun h => h.lseq == Flit.ackSeq fl) then
    let rest := (p.replay.dropWhile (fun h => !(h.lseq == Flit.ackSeq fl))).drop 1
    b.setPort d n { p with replay := rest, timerAt := b.now d, partnerAck := Flit.ackSeq fl }
  else b

/-- Every held flit sent again, oldest first (R47), counted as one replay. DESIGN CHOICE: the replay timer starts again with the resent flits,
on a NAK as on its own expiry; R47 names only an advance of ACK_SEQ (log 132). -/
def resendAll (b : Blk) (d : Dev) (n : Nat) : Blk :=
  let p := b.port d n
  let b := b.forEach p.replay (fun b h => b.emit (.flit d n h.flit))
  let b := b.count d (offPort d n 0x10) 15 0 1
  b.modPort d n (fun p => { p with timerAt := b.now d })

/-- Partition and class of the packets with slots in held flits (R49): one for each header, and the one that had begun before the oldest. -/
def heldPackets (l : List HeldFlit) : List (Nat × Nat) :=
  let starts := l.flatMap (fun h => ((upto 15).filter (fun i => bitOf (Flit.start h.flit) i)).map (fun i =>
    let x := (Flit.slot h.flit i).toNat
    (bits x 116 105, bits x 125 123)))
  match l with
  | [] => []
  | h :: _ => (if bitOf (Flit.start h.flit) 0 then [] else h.cont.toList) ++ starts

/-- A packet given to a port to send. -/
def sendOn (b : Blk) (d : Dev) (n : Nat) (p : Packet) : Blk :=
  b.modPort d n (fun q => { q with tx := q.tx ++ [{ pkt := p, sent := 0, have_ := Packet.slots p, copy := none, bad := none }] })

/-! ## Markers (R405) -/

/-- AM_SEQ of a direction at a time: it advances with each marker, every 4,096th codeword of 25.6 ns on a link that is UP, every 16th while
the link trains. -/
def markerNo (base at_ now : Nat) (up : Bool) : Nat := (base + (now - at_) * 10 / (if up then 1048576 else 4096)) % 65536

/-- The port's own marker number. -/
def txMarker (b : Blk) (d : Dev) (n : Nat) : Nat :=
  let p := b.port d n
  markerNo p.txAm p.txAmAt (b.now d) (b.lstate d n == 2)

/-- The partner's marker number, counted on from the last one noted. -/
def rxMarker (b : Blk) (d : Dev) (n : Nat) : Nat :=
  let p := b.port d n
  markerNo p.amSeq p.amAt (b.now d) (b.lstate d n == 2)

/-- Both numbers taken over before the spacing of the markers changes. -/
def settleMarkers (b : Blk) (d : Dev) (n : Nat) : Blk :=
  let tx := b.txMarker d n
  let rx := b.rxMarker d n
  let t := b.now d
  b.modPort d n (fun p => { p with txAm := tx, txAmAt := t, amSeq := rx, amAt := t })

/-- A lane-management operation sent in the port's own markers (R406). -/
def sendMarker (b : Blk) (d : Dev) (n op arg : Nat) : Blk := b.emit (.marker d n op arg (b.txMarker d n))

/-- Whether a port can exchange flits: it is UP and its part's modulators are not quiet (R479, R480). -/
def portUp (b : Blk) (d : Dev) (n : Nat) : Bool := b.lstate d n == 2 && b.inRun d

end Blk

/-! ## Meanings -/

/-- REPLAY_TIMER_EXPIRY (R47): 2 µs without the acknowledgement advancing. -/
def execReplayTimerExpiry (d : Dev) (port : Nat) (s : State) : Res :=
  s.onIf (hasPort d port) (fun b =>
    let p := b.port d port
    if b.portUp d port && !p.replay.isEmpty && decide (p.timerAt + 2000 ≤ b.now d) then b.resendAll d port else b)

/-- FLIT_SEND (R47, R51, R270). -/
def execFlitSend (d : Dev) (port : Nat) (s : State) : Res :=
  s.onIf (hasPort d port) (fun b => if b.portUp d port then b.sendFlit d port else b)

end Sys2Proof.Machine
end

