-- ==== Sys2Proof/Machine/Clock.lean ====
section
/-! DEFINITION. Clocks and time: what passes in a nanosecond, and the time unit with its servo (R476, R482, R483, R488, R489, R503). -/

namespace Sys2Proof.Machine

open Sys2Proof

namespace Blk

/-- One nanosecond passes at a part: elapsed time by 1 ns, the time counter by one cycle of the 1 GHz time domain, its increment
trimmed by the servo (R476, R482). -/
def tickPart (b : Blk) (d : Dev) : Blk :=
  if b.clocked d then
    b.modCore d (fun c => { c with now := c.now + 1, tctr := ((c.tctr : Int) + 2 ^ 32 + c.servo.trim).toNat % 2 ^ 96 })
  else b

/-- Time passes at both parts (log 2). -/
def tick (b : Blk) : Blk := (b.tickPart .sw).tickPart .ep

/-! ## The servo -/

def modServo (b : Blk) (d : Dev) (f : Servo → Servo) : Blk := b.modCore d (fun c => { c with servo := f c.servo })

/-- SRC of TIME_CTL: 0 FREE, 1 PTP, 2 PORT (R503). -/
def timeSrc (b : Blk) (d : Dev) : Nat := b.fld d offTimeCtl 63 62

/-- The port time is taken from: PORT, or under 0x7F the lowest-numbered port that is UP, kept until it goes down (R503). -/
def srcPort (b : Blk) (d : Dev) : Option Nat :=
  let n := b.fld d offTimeCtl 61 55
  let lowest := (upto (nPorts d)).find? (fun k => b.portUp d k)
  if n ≠ 0x7F then (if b.portUp d n then some n else none)
  else match (b.core d).servo.chosen with
    | some k => if b.portUp d k then some k else lowest
    | none => lowest

def timeLocked (b : Blk) (d : Dev) : Bool := b.flag d offTimeStatus 63

/-- LOCKED written, with its event (R501, R504). -/
def setTimeLocked (b : Blk) (d : Dev) (v : Bool) : Blk :=
  if v == b.timeLocked d then b else (b.setFlag d offTimeStatus 63 v).cptEvent d (if v then 0 else 1)

/-- Whether a part holds no key in a current slot (R483). -/
def noCurrentKey (b : Blk) (d : Dev) : Bool := (b.core d).keys.all (fun e => e.2.cur.isNone)

/-- The servo acts on an offset, in 2^-16 ns: a step while no key is current and the offset exceeds 1 µs, a slew of at most ±100 ppm
otherwise, its amount free (R483, R504, R513). -/
def discipline (b : Blk) (d : Dev) (off : Int) : Blk :=
  let b := b.setFld d offTimeStatus 31 0 (ofSigned 32 (off / 256))
  if b.noCurrentKey d && decide (65536000 < off.natAbs) then
    let b := b.modCore d (fun c => { c with tctr := (((c.tctr : Int) + off * 65536) % (2 ^ 96 : Nat)).toNat })
    (b.setFlag d offTimeStatus 62 true).errRecord d
      { cls := 0, source := 0x10, event := 3, action := 0, inst := 0, part := 0, detail := ofSigned 64 (off / 65536) }
  else
    let (k, b) := b.fresh
    b.modServo d (fun s => { s with trim := ((Config.freeNat k % 858993 : Nat) : Int) - 429496 })

/-- LOCKED after a good exchange (R489): set after 16 in a row within 10 ns while the partner is locked, cleared beyond 50 ns or when the
partner is not. -/
def judgeLock (b : Blk) (d : Dev) (off : Int) (partner : Bool) : Blk :=
  let b := b.modServo d (fun s => { s with goodRun := if off.natAbs ≤ 655360 then min 16 (s.goodRun + 1) else 0 })
  if 3276800 < off.natAbs ∨ partner = false then b.setTimeLocked d false
  else if 16 ≤ (b.core d).servo.goodRun then b.setTimeLocked d true else b

/-- The servo starts again (R503): nothing known of a source. -/
def restartServo (b : Blk) (d : Dev) : Blk :=
  let b := b.setTimeLocked d false
  let b := b.setFld d offTimeStatus 61 58 15
  b.modCore d (fun c => { c with servo := { Servo.idle with nextId := c.servo.nextId, lastGood := c.now, lastSync := c.servo.lastSync } })

/-! ## Time messages (R488-R490) -/

/-- The node a part names as its own in a time message: a switch without a node uses 0. -/
def timeNode (b : Blk) (d : Dev) : Nat :=
  match d with
  | .sw => b.swNode.getD 0
  | .ep => b.ep.node

/-- The lower header of a time message. -/
def timeLow (id : Nat) (link lock : Bool) (depth : Nat) : Nat := packBits [(16, id), (1, b2n link), (1, b2n lock), (4, depth), (74, 0)]

/-- The TIME_SYNC of a part for a port. -/
def timeSyncPacket (b : Blk) (d : Dev) (port id : Nat) : Packet :=
  let plane : Nat := match d with
    | .sw => b.swPlane
    | .ep => port
  mkPacket { tc := 6, opcode := 0x30, part := 0, plane := plane, dst := b.fld d (offPort d port 0) 47 34, src := b.timeNode d,
             low := timeLow id true false 0 } false (zeros 32)

/-- The TIME_REPLY to a TIME_SYNC that arrived at T2; T3 is written as it leaves. -/
def timeReplyPacket (b : Blk) (d : Dev) (p : Packet) (plane dst t2 : Nat) : Packet :=
  mkPacket { tc := 6, opcode := 0x31, part := 0, plane := plane, dst := dst, src := b.timeNode d,
             low := timeLow (Packet.f p 127 112) (Packet.f p 111 111 == 1) (b.timeLocked d) (b.fld d offTimeStatus 61 58) }
    false (beBytes 10 t2 ++ zeros 22)

/-- The answer to a link-local TIME_SYNC, out of the port it came by. -/
def answerSync (b : Blk) (d : Dev) (port : Nat) (p : Packet) : Blk :=
  b.sendOn d port (b.timeReplyPacket d p (Packet.plane p) (b.fld d (offPort d port 0) 47 34) (b.stamp d))

/-- A TIME_REPLY from the partner: the exchange ends, and a good one drives the servo (R489). -/
def takeReply (b : Blk) (d : Dev) (port : Nat) (p : Packet) : Blk :=
  match (b.core d).servo.sync with
  | none => b
  | some s =>
    if s.port ≠ port ∨ s.id ≠ Packet.f p 127 112 ∨ b.timeSrc d ≠ 2 then b
    else
      let b := b.modServo d (fun v => { v with sync := none })
      let diff := fun (x y : Nat) => toSigned 80 (x + 2 ^ 80 - y)
      let t2 := beNat (slice p.payload 0 10)
      let t3 := beNat (slice p.payload 10 10)
      let t4 := b.stamp d
      let delay : Int := (diff t4 s.t1 - diff t3 t2) / 2
      if b.now d ≤ s.at_ + 100000 ∧ 0 ≤ delay ∧ delay ≤ 655360000 then
        let asym := toSigned 32 (b.fld d offTimeCtl 31 0)
        let off := diff t2 s.t1 - delay - asym
        let partner := Packet.f p 110 110 == 1
        let t := b.now d
        let b := b.modServo d (fun v => { v with lastGood := t, lost := false })
        let b := b.setFld d offTimeStatus 61 58 (min (Packet.f p 109 106 + 1) 15)
        (b.discipline d off).judgeLock d off partner
      else b.modServo d (fun v => { v with goodRun := 0 })

/-- A link-local time message whose header check holds, at the time unit. -/
def timeUnit (b : Blk) (d : Dev) (port : Nat) (p : Packet) : Blk :=
  if Packet.malformed p then b.count d (offPort d port 0x10) 63 48 1
  else if Packet.opcode p = 0x30 then b.answerSync d port p
  else b.takeReply d port p

end Blk

end Sys2Proof.Machine
end

