-- ==== Sys2Proof/Machine/Arithmetic.lean ====
section
/-! DEFINITION. Exact reduction arithmetic: element types, images, exponents, residue tags, accumulators and partial elements, the final
rounding (R179-R203). -/

namespace Sys2Proof.Machine

open Sys2Proof

/-! ## Elements (R179-R181) -/

/-- A contribution element. A finite one is m × 2^e with a sign. -/
inductive Elem where
  | nan
  | inf (neg : Bool)
  | fin (neg : Bool) (m : Nat) (e : Int)
  deriving DecidableEq, Repr

/-- A floating-point format: exponent bits, fraction bits, bias, whether it is E4M3, which has no infinities. -/
structure Fmt where
  eb   : Nat
  fb   : Nat
  bias : Nat
  e4m3 : Bool
  deriving DecidableEq, Repr

/-- The format of a DTYPE but TH-B8. -/
def fmtOf (dtype : Nat) : Fmt :=
  match dtype with
  | 0 => { eb := 8, fb := 23, bias := 127, e4m3 := false }
  | 1 => { eb := 8, fb := 7, bias := 127, e4m3 := false }
  | 2 => { eb := 5, fb := 10, bias := 15, e4m3 := false }
  | 3 => { eb := 4, fb := 3, bias := 7, e4m3 := true }
  | _ => { eb := 5, fb := 2, bias := 15, e4m3 := false }

/-- Bytes of an element; TH-B8 counts its unit's element bytes. -/
def elemSize (dtype : Nat) : Nat := if dtype = 0 then 4 else if dtype = 1 ∨ dtype = 2 then 2 else 1

/-- Elements of a chunk of B bytes (R181). -/
def elemCount (dtype bytes : Nat) : Nat := if dtype = 5 then 3968 * bytes / 4096 else bytes / elemSize dtype

/-- A floating-point element from its encoding. -/
def decodeElem (f : Fmt) (x : Nat) : Elem :=
  let neg := bitOf x (f.eb + f.fb)
  let ex := bits x (f.eb + f.fb - 1) f.fb
  let fr := bits x (f.fb - 1) 0
  if ex = 2 ^ f.eb - 1 ∧ f.e4m3 = false then (if fr = 0 then .inf neg else .nan)
  else if f.e4m3 = true ∧ ex = 15 ∧ fr = 7 then .nan
  else if ex = 0 then .fin neg fr (1 - (f.bias : Int) - f.fb)
  else .fin neg (fr + 2 ^ f.fb) ((ex : Int) - f.bias - f.fb)

/-- A TH-B8 element: scale byte and 8-bit integer (R180). -/
def thElem (scale k : Nat) : Elem :=
  if scale = 255 then .nan
  else
    let v := toSigned 8 k
    .fin (decide (v < 0)) v.natAbs ((scale : Int) - 127)

/-- Elements of a run of bytes that starts at a 4,096 B boundary of its chunk: index and value. -/
def elemsOf (dtype frag : Nat) (bytes : List Byte) : List (Nat × Elem) :=
  if dtype = 5 then
    (upto (bytes.length / 4096)).flatMap (fun u =>
      let unit := (bytes.drop (4096 * u)).take 4096
      (upto 3968).map (fun i => (3968 * (frag + u) + i, thElem (leAt unit (i / 32) 1) (leAt unit (128 + i) 1))))
  else
    let k := elemSize dtype
    (upto (bytes.length / k)).map (fun i => (4096 / k * frag + i, decodeElem (fmtOf dtype) (leAt bytes (k * i) k)))

/-! ## Images (R184) -/

/-- u / d to the nearest integer, ties to even. -/
def rne (u d : Nat) : Nat :=
  let n := u / d
  let r := u % d
  if d < 2 * r ∨ (2 * r = d ∧ n % 2 = 1) then n + 1 else n

/-- Window bits of a WIDTH code (R183). -/
def windowBits (code : Nat) : Nat := 128 + 64 * code

/-- Image of an element: the window integer, and whether the element saturated. -/
def toImage (q : Int) (w : Nat) (v : Elem) : Int × Bool :=
  let lim : Nat := 2 ^ (w - 1) - 1
  match v with
  | .nan => (lim, true)
  | .inf neg => (if neg then -(lim : Int) else lim, true)
  | .fin neg m e =>
    let x := if q ≤ e then m * 2 ^ (e - q).toNat else rne m (2 ^ (q - e).toNat)
    if lim < x then (if neg then -(lim : Int) else lim, true) else (if neg then -(x : Int) else x, false)

/-- What an image adds to its accumulator (R191). -/
def imageSum (w : Nat) (x : Int × Bool) : Int := x.1 + (if x.2 then 2 ^ (w + 16) else 0)

/-! ## Exponents (R187-R189) -/

/-- Exponent entry of one element, as a signed value: -32768 for zero, 32767 for a NaN or an infinity. -/
def elemExp : Elem → Int
  | .nan => 32767
  | .inf _ => 32767
  | .fin _ m e => if m = 0 then -32768 else (Nat.log2 m : Int) + e

/-- Exponent entry of a chunk's elements (16 bits). -/
def chunkExp (l : List (Nat × Elem)) : Nat := ofSigned 16 (l.foldl (fun a x => max a (elemExp x.2)) (-32768))

/-- Two entries combined: the larger, 0x8000 lowest and 0x7FFF highest. -/
def combineExp (a b : Nat) : Nat := if toSigned 16 a < toSigned 16 b then b else a

/-- Screed level from the combined entries (R189). -/
def autoScreed (w : Nat) (entries : List Nat) : Int :=
  let fin := entries.filter (fun x => x != 0x8000 && x != 0x7FFF)
  match fin with
  | [] => 0
  | x :: r => (r.foldl (fun a y => max a (toSigned 16 y)) (toSigned 16 x)) - w + 16

/-! ## Residue tags (R196-R198) -/

/-- The prime 2^61 - 1. -/
def tagP : Nat := 2 ^ 61 - 1

/-- Residue of a signed integer. -/
def modP (z : Int) : Nat := (z % (tagP : Int)).toNat

/-- Residue tag of (index, value) pairs. -/
def residueTag (l : List (Nat × Int)) : Nat := l.foldl (fun t e => (t + modP e.2 * 2 ^ (e.1 % 61)) % tagP) 0

/-! ## Partial elements (R192, R193) -/

/-- Bytes of a partial element. -/
def partialSize (w : Nat) : Nat := (w + 32) / 8

/-- Elements of part j of a chunk of E elements. -/
def partElems (e j : Nat) : Nat := min e (4096 * j + 4096) - 4096 * j

/-- FRAG_LAST of part j. -/
def partFragLast (e w j : Nat) : Nat := (partElems e j * partialSize w + 4095) / 4096 - 1

/-- Payload bytes of fragment f of part j, whole 256 B units. -/
def partFragBytes (e w j f : Nat) : Nat :=
  let n := partElems e j * partialSize w
  if f < partFragLast e w j then 4096 else (n - 4096 * f + 255) / 256 * 256

/-- What the bytes of a fragment of a part add to the accumulators: each byte stands for its place in its element, the top byte with its
sign, so that an element that straddles two fragments is added by both. -/
def addPartBytes (acc : Tbl Int) (e w j f : Nat) (bytes : List Byte) : Tbl Int :=
  let s := partialSize w
  let n := partElems e j * s
  (bytes.foldl (fun (st : Tbl Int × Nat) (b : Byte) =>
    let pos := 4096 * f + st.2
    if n ≤ pos then (st.1, st.2 + 1)
    else
      let i := 4096 * j + pos / s
      let k := pos % s
      let v : Int := (if k + 1 = s then toSigned 8 b.toNat else (b.toNat : Int)) * 256 ^ k
      (st.1.set i (st.1.get i 0 + v) 0, st.2 + 1)) (acc, 0)).1

/-- The bytes of part j from the accumulators. -/
def partBytes (acc : Tbl Int) (e w j : Nat) : List Byte :=
  (upto (partElems e j)).flatMap (fun i => leBytes (partialSize w) (ofSigned (w + 32) (acc.get (4096 * j + i) 0)))

/-- Tag of the partial elements whose first byte lies in fragment f of part j. -/
def partTag (acc : Tbl Int) (e w j f : Nat) : Nat :=
  let s := partialSize w
  residueTag (((upto (partElems e j)).filter (fun i => s * i / 4096 == f)).map (fun i => (4096 * j + i, acc.get (4096 * j + i) 0)))

/-! ## The final rounding (R195, R199-R202) -/

/-- Count of saturated contributions in an accumulator, and the sum of images. -/
def satCount (w : Nat) (p : Int) : Int := (p + 2 ^ (w + 15)) / 2 ^ (w + 16)
def imageTotal (w : Nat) (p : Int) : Int := p - satCount w p * 2 ^ (w + 16)

/-- floor(log2 (m / d)) for positive m and d. -/
def floorLog (m d : Nat) : Int :=
  if d ≤ m then Nat.log2 (m / d)
  else
    let c := (d + m - 1) / m
    Int.neg (Int.ofNat (Nat.log2 (c - 1) + 1))

/-- m × 2^e / (d × 2^q) rounded to the nearest integer, ties to even. -/
def rneScaled (m d : Nat) (e q : Int) : Nat :=
  if q ≤ e then rne (m * 2 ^ (e - q).toNat) d else rne m (d * 2 ^ (q - e).toNat)

/-- Largest finite value of a format as significand and exponent of its last bit. -/
def fmtMax (f : Fmt) : Nat × Int :=
  if f.e4m3 then (14, 5) else (2 ^ (f.fb + 1) - 1, (2 ^ f.eb - 2 : Nat) - (f.bias : Int) - f.fb)

/-- a × 2^e / d rounded once to a format: encoding, and whether it is out of range (R200). -/
def roundOut (f : Fmt) (a : Int) (e : Int) (d : Nat) : Nat × Bool :=
  if a = 0 then (0, false)
  else
    let m := a.natAbs
    let p := f.fb + 1
    let emin : Int := 1 - f.bias
    let t := floorLog m d + e
    let q0 := max t emin - f.fb
    let n0 := rneScaled m d e q0
    let n := if n0 = 2 ^ p then 2 ^ f.fb else n0
    let q := if n0 = 2 ^ p then q0 + 1 else q0
    let sign := if a < 0 then 2 ^ (f.eb + f.fb) else 0
    let enc := fun (n : Nat) (q : Int) => if n < 2 ^ f.fb then n else ((q + f.fb + f.bias).toNat) * 2 ^ f.fb + (n - 2 ^ f.fb)
    let (mn, mq) := fmtMax f
    if mq < q ∨ (q = mq ∧ mn < n) then (sign + enc mn mq, true) else (sign + enc n q, false)

/-- x × 2^a < y × 2^b. -/
def ltPow (x : Nat) (a : Int) (y : Nat) (b : Int) : Bool :=
  let lo := min a b
  decide (x * 2 ^ (a - lo).toNat < y * 2 ^ (b - lo).toNat)

/-- A TH-B8 block from its 32 exact values a × 2^e / d: scale, elements, and whether it is flagged (R201). -/
def thBlock (ys : List Int) (e : Int) (d : Nat) : Nat × List Nat × Bool :=
  let mx := ys.foldl (fun a y => max a y.natAbs) 0
  if mx = 0 then (0, ys.map (fun _ => 0), false)
  else
    let found := (upto 255).find? (fun s => ltPow (2 * mx) e (255 * d) (Int.ofNat s - 127))
    let s : Nat := found.getD 254
    let k := fun y : Int =>
      let r := min 127 (rneScaled y.natAbs d e ((s : Int) - 127))
      ofSigned 8 (if y < 0 then -(r : Int) else r)
    (s, ys.map k, found.isNone)

/-- Exponent and divisor of the exact results under a scale mode (R199). -/
def scaleOf (mode : Nat) (q k : Int) (n : Nat) : Int × Nat :=
  if mode = 1 then (q + k, 1) else if mode = 2 then (q, n) else (q, 1)

/-- A result chunk of E elements: bytes in its DTYPE, and whether it completes with RANGE. -/
def roundChunk (dtype w : Nat) (acc : Tbl Int) (count : Nat) (e : Int) (d : Nat) : List Byte × Bool :=
  let a := fun i => imageTotal w (acc.get i 0)
  let sat := (upto count).any (fun i => satCount w (acc.get i 0) != 0)
  if dtype = 5 then
    let units := (upto (count / 3968)).map (fun u =>
      let bs := (upto 124).map (fun b => thBlock ((upto 32).map (fun j => a (3968 * u + 32 * b + j))) e d)
      (bs.map (fun x => BitVec.ofNat 8 x.1) ++ zeros 4 ++ bs.flatMap (fun x => x.2.1.map (BitVec.ofNat 8)), bs.any (fun x => x.2.2)))
    (units.flatMap (fun x => x.1), sat || units.any (fun x => x.2))
  else
    let f := fmtOf dtype
    let rs := (upto count).map (fun i => roundOut f (a i) e d)
    (rs.flatMap (fun x => leBytes (elemSize dtype) x.1), sat || rs.any (fun x => x.2))

end Sys2Proof.Machine
end

