-- ==== Sys2Proof/Machine/Hbm.lean ====
section
/-! DEFINITION. The HBM of the switch: windows, pools and the place of a line, what its ECC finds, and the calendars that the home-agent
engines and the reduction complex follow (R306-R311, R313, R316, R319, R329-R331, R349, R350, R373, R377, R429). Lines are numbered through
the carves: fabric memory by node offset bits [43:6], then the overflow, then the swatch ring. -/

namespace Sys2Proof.Machine

open Sys2Proof

namespace Blk

/-! ## Windows (R311) -/

def winFld (b : Blk) (i hi lo : Nat) : Nat := b.fld .sw (offFmemWin i) hi lo

/-- A window that is in force. -/
def winReady (b : Blk) (i : Nat) : Bool := b.winFld i 63 63 == 1 && b.winFld i 0 0 == 1

/-- First and last line of a window. -/
def winFirst (b : Blk) (i : Nat) : Nat := b.winFld i 61 44 * 2 ^ 15
def winLast (b : Blk) (i : Nat) : Nat := (b.winFld i 43 26 + 1) * 2 ^ 15 - 1

/-- Whether bytes lie in a window that is in force. -/
def winHolds (b : Blk) (i off len : Nat) : Bool :=
  b.winReady i && decide (64 * b.winFirst i ≤ off) && decide (off + len ≤ 64 * (b.winLast i + 1))

/-- The window that holds a line, by local index. -/
def winOf (b : Blk) (l : Nat) : Option Nat :=
  (upto 64).find? (fun i => b.winReady i && decide (b.winFirst i ≤ l) && decide (l ≤ b.winLast i))

/-! ## Carves and pools (R307-R310) -/

/-- Lines of fabric memory, of the overflow and of the swatch ring. -/
def fmemLines (b : Blk) : Nat := b.fld .sw offHbmCarve 63 46 * 2 ^ 15
def ovfLines (b : Blk) : Nat := b.fld .sw offHbmCarve 45 37 * 2 ^ 24
def ringLines (b : Blk) : Nat := b.fld .sw offHbmCarve 31 12 * 2 ^ 14
def carveLines (b : Blk) : Nat := b.fmemLines + b.ovfLines + b.ringLines

/-- Line that holds a cell of a packet in the overflow. -/
def ovfLine (b : Blk) (id cell : Nat) : Nat := b.fmemLines + Config.ovfLine id cell % b.ovfLines

/-- Line that holds a record of the swatch ring. -/
def ringLine (b : Blk) (k : Nat) : Nat := b.fmemLines + b.ovfLines + k

/-- Groups of a masked window's pool. -/
def winGroups (b : Blk) (i : Nat) : List Nat := (upto (b.winFld i 20 16)).map (fun k => b.winFld i 25 21 + k)

/-- Groups of the pool of a line: the masked window's that holds it; else those no masked window has. -/
def poolGroups (b : Blk) (l : Nat) : List Nat :=
  let shared := (upto 32).filter (fun g => !((upto 64).any (fun i => b.winFld i 63 62 == 3 && (b.winGroups i).contains g)))
  if b.fmemLines ≤ l then shared
  else match b.winOf l with
    | some i => if b.winFld i 62 62 = 1 then b.winGroups i else shared
    | none => shared

/-- The pseudo-channels of groups (R307). -/
def groupPcs (gs : List Nat) : List Nat := gs.flatMap (fun g => (upto 6).map (fun s => 32 * s + g))

/-- A list in the order that choices among what is left give. -/
def ordered (f : Nat → Nat) : Nat → List Nat → List Nat
  | 0, _ => []
  | n + 1, l =>
    match l[f n % l.length]? with
    | none => []
    | some x => x :: ordered f n (l.erase x)

/-- The pseudo-channel of a line: the four lines of a 256 B block share one, and consecutive blocks take the pool's in turn (R310). -/
def linePc (b : Blk) (l : Nat) : Nat :=
  let ps := groupPcs (b.poolGroups l)
  ((ordered (Config.pcOrder ps) ps.length ps)[l / 4 % ps.length]?).getD 0

/-- A line's place: pseudo-channel, bank and row. -/
def rowOf (b : Blk) (l : Nat) : RowId := { pc := b.linePc l, bank := Config.hbmBank l, row := Config.hbmRow l }

/-! ## The sideband and the line ECC (R316, R319) -/

end Blk

/-- Sideband bits [31:0] of a fabric-memory line (R316); in the overflow and the swatch ring they are 0. -/
def Line.side (x : Line) : Nat := 2 * b2n x.init + x.gen % 2

/-- The 64 bytes a line of fabric memory is stored as: encrypted under its key with its offset as the tweak; zeros while it is INIT (R312,
R317). -/
def Line.stored (x : Line) (l : Nat) : List Byte := if x.init then zeros 64 else (upto 64).map (Config.xtsEncrypt x.key (64 * l) x.data)

/-- The sideband of a line of fabric memory, LECC in bits [63:32] (R316, R319). -/
def Line.sideband (x : Line) (l : Nat) : Nat := x.side + 2 ^ 32 * (Config.lineEcc (x.stored l) x.side l % 2 ^ 32)

/-- The sideband of a line of the overflow or of the swatch ring, stored as it is (R316, R317). -/
def plainSideband (data : List Byte) (l : Nat) : Nat := 2 ^ 32 * (Config.lineEcc data 0 l % 2 ^ 32)

namespace Blk

/-! ## What the ECC finds (R329-R331, R419, R436) -/

/-- Whether a line reads as uncorrectable. -/
def lineBad (b : Blk) (ecc : Ecc) (l : Nat) : Bool := ecc.ue.contains l || b.sw.badLines.contains l

/-- A corrected error: counted; its row is looked at by the scrub. -/
def lineCe (b : Blk) (l : Nat) : Blk :=
  (b.count .sw offHbmErr 63 32 1).modSw (fun s => { s with ceLines := addNew s.ceLines l })

/-- An uncorrectable line: counted, recorded with its class, and added to the bucket of its pseudo-channel, which fires with a record of
REPLACE_PART. -/
def hbmUe (b : Blk) (pc cls part detail : Nat) : Blk :=
  let b := b.count .sw offHbmErr 31 16 1
  let b := b.errRecord .sw { cls := cls, source := 0x06, event := 0x01, action := 0, inst := pc, part := part, detail := detail }
  let l := b.sw.pcLvl.get pc 0 + 1
  if b.fld .sw (offBkt .sw 5) 47 32 ≤ l then
    (b.modSw (fun s => { s with pcLvl := s.pcLvl.set pc 0 0 })).errRecord .sw
      { cls := 1, source := 0x06, event := 0x04, action := 1, inst := pc, part := part, detail := detail }
  else b.modSw (fun s => { s with pcLvl := s.pcLvl.set pc l 0 })

/-- An uncorrectable line of the overflow or the swatch ring: transient; the record gives its offset in the two. -/
def plainUe (b : Blk) (l : Nat) : Blk :=
  (b.modSw (fun s => { s with ueRows := addNew s.ueRows l })).hbmUe (b.linePc l) 0 0 (64 * (l - b.fmemLines))

/-- A whole line of the overflow or the swatch ring written: what failed there is gone. -/
def plainWrite (b : Blk) (l : Nat) : Blk := if b.sw.badLines.isEmpty then b else b.modSw (fun s => { s with badLines := without s.badLines l })

/-- The lines of a packet in the overflow written. -/
def ovfWrite (b : Blk) (id cells : Nat) : Blk := if b.sw.badLines.isEmpty then b else b.forBelow cells (fun b j => b.plainWrite (b.ovfLine id j))

/-! ## Engines that have stopped, and calendars (R313, R373, R377, R429) -/

/-- Lines that bytes touch. -/
def linesOf (off len : Nat) : List Nat := if len = 0 then [] else (upto ((off + len - 1) / 64 - off / 64 + 1)).map (fun j => off / 64 + j)

/-- Whether bytes belong to a home-agent engine that has stopped for patching: accesses to them wait. -/
def homeStopped (b : Blk) (off len : Nat) : Bool :=
  match b.sw.patch.active with
  | some t => !b.sw.patch.moved && (linesOf off len).any (fun l => Config.homeTile l % 18 == t)
  | none => false

/-- Whether work of a partition may be done now at what follows the calendar of an internal egress: in a slot a QSET owns only that QSET's
partition's, in an OPEN slot every other, and none behind the throttled end of a slot (R373, R377). -/
def calMay (b : Blk) (eq pid : Nat) : Bool :=
  let c := b.calOf eq
  if 16 ≤ c || !b.anyMasked then true
  else
    let (len, st) := b.calHead c
    if st = 0 then true
    else
      let t := b.timeNs .sw
      let own := b.calOwner c (t / st % len)
      decide (t % st < st * (16 - b.fld .sw offSecState 18 16) / 16)
        && (if own = 0xFF then !b.pidMasked pid else b.pidMasked pid && b.qsetOf pid == own)

/-- A command that waits for a home-agent engine or the reduction complex (R373, R426, R429). -/
def waitSw (b : Blk) (i : Instr) : Blk := b.modSw (fun w => { w with waiting := w.waiting ++ [i] })

end Blk

end Sys2Proof.Machine
end

