-- ==== Sys2Proof/Machine/Pipeline.lean ====
section
/-! DEFINITION. The packet pipeline of a switch port: classify, partition check, route, queue, colour, operators, marks, mirror and
samples, multicast expansion and the queues behind it (R244-R253, R266, R267, R272-R279, R283-R291, R297-R301, R469). -/

namespace Sys2Proof.Machine

open Sys2Proof

/-! ## Rules of the lath image (R346-R348) -/

/-- Whether a packet at an ingress port fits a MATCH (R346). -/
def ruleMatches (m : Nat) (port : Nat) (p : Packet) : Bool :=
  bitOf m 127 && (bits m 126 120 == 0x7F || bits m 126 120 == port)
    && (Packet.tc p &&& bits m 116 114) == bits m 119 117
    && (Packet.opcode p &&& bits m 107 102) == bits m 113 108
    && (Packet.part p &&& bits m 89 78) == bits m 101 90
    && (Packet.dst p &&& bits m 63 50) == bits m 77 64
    && (Packet.src p &&& bits m 35 22) == bits m 49 36
    && (Packet.colour p &&& bits m 19 18) == bits m 21 20

/-- The lowest-numbered rule of a list that matches and that a test accepts: its number and content. -/
def firstRule (rules : Tbl (BitVec 256)) (lo hi port : Nat) (p : Packet) (ok : Nat → Bool) : Option (Nat × Nat) :=
  (rules.find? (fun r => decide (lo ≤ r.1) && decide (r.1 ≤ hi) && ruleMatches (bits r.2.toNat 127 0) port p && ok r.2.toNat)).map
    (fun r => (r.1, r.2.toNat))

namespace Blk

/-- Operation of a stage of the tile that serves a port (R246). -/
def stageOp (b : Blk) (port st : Nat) : Nat := b.fld .sw (offTileStage (port / 4) st) 35 32

/-- The OPERATOR stages of a port's tile, lowest first (R347). -/
def operatorStages (b : Blk) (port : Nat) : List Nat := (upto 12).filter (fun st => b.stageOp port st == 0xB)

/-! ## The swatch ring (R297-R300) -/

/-- Records the ring holds (R299). -/
def swatchSize (b : Blk) : Nat := b.fld .sw offSwatchCtl 63 32 * 16384

/-- Records left in the record buffer: one is written in a nanosecond, in two while a supply hold paces HBM (R298, R333). -/
def swatchLevel (b : Blk) : Nat := b.sw.swLvl - (b.now .sw - b.sw.swAt) / (if b.sw.hold.causes.isEmpty then 1 else 2)

/-- The record buffer brought up to date: before a record, and before the pace of HBM changes. -/
def settleSwatch (b : Blk) : Blk := b.modSw (fun s => { s with swLvl := b.swatchLevel, swAt := b.now .sw })

/-- A record captured, with the arrival stamp of its packet: lost when the record buffer or, in STOP mode, the ring is full; written at WR
otherwise. -/
def swatchRecord (b : Blk) (p : Packet) (ingress eq event rule depth stamp : Nat) : Blk :=
  if !b.flag .sw offSwatchCtl 0 || b.pidMasked (Packet.part p) then b
  else
    let lvl := b.swatchLevel
    let b := b.settleSwatch
    let wr := b.fld .sw offSwatchWr 39 0
    let rd := b.fld .sw offSwatchRd 39 0
    let size := b.swatchSize
    let stop := b.flag .sw offSwatchCtl 1
    if 4096 ≤ lvl then b.count .sw offSwatchStat 63 32 1
    else if stop && decide (wr - rd = size) then b.count .sw offSwatchStat 63 32 1
    else
      let rec_ := beBytes 32 p.hdr.toNat ++ leBytes 8 (stamp / 2 ^ 16) ++ leBytes 2 stamp ++ leBytes 1 ingress
        ++ leBytes 1 eq ++ leBytes 1 (b.qsetOf (Packet.part p)) ++ leBytes 1 event ++ leBytes 2 rule ++ leBytes 4 depth
        ++ leBytes 4 wr ++ zeros 8
      let b := b.when_ (!stop && decide (size ≤ wr - rd)) (fun b => b.count .sw offSwatchStat 31 0 1)
      let b := (b.modSw (fun s => { s with swatch := s.swatch.set (wr % size) rec_ [], swLvl := lvl + 1 })).plainWrite (b.ringLine (wr % size))
      b.setFld .sw offSwatchWr 39 0 (wr + 1)

/-- An event of a packet captured under the mirror rules, or for the highest OPERATOR stage that asked (R348): EVENT 1 enqueued, 2
dropped, 3 answered, 4 tail-marked. -/
def mirrorAt (b : Blk) (p : Packet) (port eq event depth : Nat) (asked : Option Nat) (stamp : Nat) : Blk :=
  let evBit := 188 + (event - 1)
  match firstRule b.sw.lath.mirror 0 255 port p (fun m => bitOf m evBit) with
  | some (n, _) => b.swatchRecord p port eq event n depth stamp
  | none =>
    match asked with
    | some st => b.swatchRecord p port eq event (0x8000 + st) depth stamp
    | none => b

/-- An event of a packet that arrives now. -/
def mirrorEvent (b : Blk) (p : Packet) (port eq event depth : Nat) (asked : Option Nat) : Blk :=
  b.mirrorAt p port eq event depth asked (b.stamp .sw)

/-! ## Sampling (R301) -/

/-- The frame counted toward its port's sample; the frame that brings the count to N is copied into the sampling reserve (R257). Of a frame
still arriving the copy takes the payload as it comes. -/
def sampleFrame (b : Blk) (p : Packet) (port eq : Nat) : Blk :=
  let n := b.fld .sw offSampleCtl 15 0
  if n = 0 || Packet.tc p == 6 || b.pidMasked (Packet.part p) then b
  else
    let cnt := b.sw.sampCnt.get port 0 + 1
    if cnt < n then b.modSw (fun s => { s with sampCnt := s.sampCnt.set port cnt 0 })
    else
      let b := b.modSw (fun s => { s with sampCnt := s.sampCnt.set port 0 0 })
      let body := (Packet.wire p).take 192
      let cells := (32 + body.length + 63) / 64
      if 1024 < b.sw.sampleCells + cells then b.count .sw offSampleStat 63 32 1
      else
        let e := beBytes 32 p.hdr.toNat ++ leBytes 8 (b.timeNs .sw) ++ leBytes 1 port ++ leBytes 1 eq
          ++ leBytes 2 (Packet.slots p) ++ leBytes 4 b.sw.ssSeq ++ zeros 16 ++ padTo 192 body
        let b := b.modSw (fun s => { s with samples := s.samples ++ [{ bytes := e, cells := cells, open_ := if Packet.whole p then none else some port }], sampleCells := s.sampleCells + cells,
                                            ssSeq := (s.ssSeq + 1) % 2 ^ 32 })
        (b.moveFree cells false).count .sw offSampleStat 31 0 1

/-! ## Colour (R252) -/

/-- Tokens of a bucket brought up to date: rate in 100 Mb/s is 1/80 byte a nanosecond, burst in bytes. -/
def refillTokens (t : Option Tokens) (now rate burstBytes : Nat) : Nat :=
  match t with
  | none => 80 * burstBytes
  | some t => min (80 * burstBytes) (t.lvl + rate * (now - t.at_))

/-- The policer of (ingress port, QSET), a two-rate three-colour marker in colour-aware mode; another class becomes green. -/
def colourStage (b : Blk) (p : Packet) (port : Nat) : Packet × Blk :=
  if Packet.tc p ≠ 7 then (Packet.setH p 150 149 0, b)
  else
    let q := b.qsetOf (Packet.part p)
    let hi := (b.reg .sw (offPolicer port q + 8)).toNat
    let w := (b.reg .sw (offPolicer port q)).toNat + hi * 2 ^ 64
    if !bitOf w 127 then (p, b)
    else
      let now := b.now .sw
      let key := 32 * port + q
      let old := b.sw.policers.find key
      let tc := refillTokens (old.map (fun x => x.c)) now (bits w 126 112) (256 * bits w 96 81)
      let tp := refillTokens (old.map (fun x => x.p)) now (bits w 111 97) (256 * bits w 80 65)
      let need := 80 * Packet.size p
      let pre := Packet.colour p
      let col : Nat := if pre = 2 || decide (tp < need) then 2 else if pre = 1 || decide (tc < need) then 1 else 0
      let tp' := if col = 2 then tp else tp - need
      let tc' := if col = 0 then tc - need else tc
      (Packet.setH p 150 149 col,
       b.modSw (fun s => { s with policers := s.policers.insert key { c := { lvl := tc', at_ := now }, p := { lvl := tp', at_ := now } } }))

/-! ## Operators (R253, R347) -/

/-- What the OPERATOR stages leave: the packet, whether it is dropped, the highest stage that asked for mirroring. -/
def operatorStage (b : Blk) (st : Nat) (second : Bool) (port : Nat) (p : Packet) (drop : Bool) (asked : Option Nat) :
    Packet × Bool × Option Nat × Blk :=
  let lo := if second then 256 else 0
  match firstRule b.sw.lath.opRules lo (lo + 255) port p (fun _ => true) with
  | none => (p, drop, asked, b)
  | some (_, r) =>
    let act := bits r 191 128
    let col := max (Packet.colour p) (bits act 63 62)
    let p' := Packet.setH p 150 149 col
    let acts := bits act 63 59 != 0
    let b := b.when_ acts (fun b => b.count .sw (offTileStage (port / 4) st) 31 0 1)
    (p', drop || bitOf act 59, if bitOf act 60 then some st else asked, b)

/-- Both OPERATOR stages; a packet of a masked partition passes untouched. -/
def operators (b : Blk) (port : Nat) (p : Packet) : Packet × Bool × Option Nat × Blk :=
  if b.pidMasked (Packet.part p) then (p, false, none, b)
  else match b.operatorStages port with
    | [] => (p, false, none, b)
    | [s0] => b.operatorStage s0 false port p false none
    | s0 :: s1 :: _ =>
      let (p, dr, ask, b) := b.operatorStage s0 false port p false none
      b.operatorStage s1 true port p dr ask

/-! ## Congestion marks (R279) -/

/-- A mark counted toward the congestion map while maps are gathered (R294, R295); a masked partition's is left out. -/
def bumpMarks (b : Blk) (pid key : Nat) : Blk :=
  if !b.flag .sw offCmapCtl 16 || b.pidMasked pid then b else
  let a := b.sw.cmap.get key CmapAcc.zero
  b.modSw (fun s => { s with cmap := s.cmap.set key { a with marks := a.marks + 1 } CmapAcc.zero })

/-- CMARK set by the mark profile of the queue and the depth of the VOQ the packet enters. -/
def markStage (b : Blk) (port : Nat) (p : Packet) (k : VoqKey) : Packet × Blk :=
  if !(Packet.tc p == 1 || Packet.tc p == 2 || Packet.tc p == 3) || Packet.cmark p == 1 then (p, b)
  else
    let w := (b.reg .sw (offMarkProf (b.queueFld k 60 55))).toNat
    let kmax := bits w 63 42
    let kmin := bits w 41 20
    let d := b.voqDepth k
    let (m, b) := if d < kmin then (false, b) else if kmax ≤ d then (true, b)
      else
        let (r, b) := b.rand k.qset
        (decide (r * 256 * (kmax - kmin) < bits w 19 12 * (d - kmin) * 65536), b)
    if m then
      let b := b.count .sw (offPort .sw port 0x888) 63 32 1
      let b := b.partCount (Packet.part p) (Packet.tc p) 5 1
      let b := b.bumpMarks (Packet.part p) (8 * k.eq + k.tc)
      (Packet.setH p 148 148 1, b)
    else (p, b)

/-! ## Queues -/

/-- Whether a spill of a queue is refused (R267). -/
def spillRefused (b : Blk) (k : VoqKey) : Bool :=
  decide (b.queueFld k 42 27 * 2 ^ 20 ≤ b.queueHbmBytes k) || decide (b.fld .sw offHbmCarve 45 37 * 2 ^ 30 ≤ b.hbmBytes)

/-- Whether a complete packet in a VOQ is to be spilled (R266): the queue is deep, and the VOQ has reached SRAM_CAP or already holds packets
in HBM. -/
def wantsSpill (b : Blk) (k : VoqKey) : Bool :=
  b.hasFlag k 62 && (decide (b.queueFld k 26 15 * 64 ≤ b.voqBufDepth k) || b.voqInHbm k)

/-- A spill begun, or refused and counted (R267). -/
def spillStart (b : Blk) (id : Nat) (k : VoqKey) : Blk :=
  let port := decide (k.src < 72)
  if b.spillRefused k then b.when_ port (fun b => b.count .sw (offPort .sw k.src 0x890) 31 0 1)
  else
    let b := b.modSw (fun s => { s with spills := s.spills ++ [(id, k)] })
    b.when_ port (fun b => b.count .sw (offPort .sw k.src 0x890) 63 32 1)

/-- A pointer to a stored copy enters a VOQ; a complete packet may be spilled at once, a long one only when its tail has arrived (R266). -/
def enqueue (b : Blk) (id : Nat) (k : VoqKey) : Blk :=
  let q := b.voq k
  let wants := b.wantsSpill k && (match b.findCopy id with | some c => decide (Packet.slots c.pkt ≤ c.have_) | none => false)
  let b := b.putVoq { q with ents := q.ents ++ [id] }
  if wants then b.spillStart id k else b

/-- A copy whose tail has just arrived, in a VOQ: it is spilled if its queue asks for it and it is not being sent from there yet. -/
def trySpill (b : Blk) (id : Nat) (k : VoqKey) : Blk :=
  if b.wantsSpill k && !b.copyInHbm id && !(b.sw.spills.any (fun e => e.1 == id && e.2 = k)) then b.spillStart id k else b

/-- Random early drop (R276): whether a TC7 copy is dropped, and the average brought up to date. -/
def redDrop (b : Blk) (k : VoqKey) (colour : Nat) : Bool × Blk :=
  let base := offRed (b.queueFld k 60 55)
  let w := fun i => (b.reg .sw (base + 8 * i)).toNat
  let prof := w 0 + w 1 * 2 ^ 64 + w 2 * 2 ^ 128 + w 3 * 2 ^ 192
  let wq := bits prof 255 252
  let sh := 64 * colour
  let hi := bits prof (63 + sh) (42 + sh)
  let lo := bits prof (41 + sh) (20 + sh)
  let maxp := bits prof (19 + sh) (12 + sh)
  let q := b.voq k
  let d := 256 * b.voqDepth k
  let avg := ((q.avg : Int) + ((d : Int) - (q.avg : Int)) / (2 ^ wq : Nat)).toNat
  let b := b.putVoq { q with avg := avg }
  if avg < 256 * lo then (false, b)
  else if 256 * hi ≤ avg then (true, b)
  else
    let (r, b) := b.rand k.qset
    (decide (r * 256 * (hi - lo) * 256 < maxp * (avg - 256 * lo) * 65536), b)

/-! ## Routing (R250, R284-R288) -/

end Blk

/-- What ROUTE finds. -/
inductive Route where
  | eq (n : Nat)
  | mcast (m : Nat)
  | malformed
  | noRoute
  | loop
  deriving DecidableEq, Repr

namespace Blk

/-- The port of a group a packet takes (R287). -/
def pick (b : Blk) (p : Packet) (g : Nat) : Option Nat :=
  let w := (b.reg .sw (offGroup g)).toNat + (b.reg .sw (offGroup g + 8)).toNat * 2 ^ 64
  let liveSet := (upto 72).filter (fun i => bitOf w i && b.live .sw i)
  let key := Packet.seq p ^^^ Packet.ctx p ^^^ Packet.src p ^^^ Packet.dst p
  if liveSet.isEmpty then none else liveSet[key % liveSet.length]?

/-- ROUTE (R250, R284, R286, R424): collective opcodes go to the reduction complex, but for the root's answer to a RESULT_NACK. -/
def route (b : Blk) (p : Packet) (arrival : Nat) : Route :=
  let op := Packet.opcode p
  if 0x20 ≤ op && op ≤ 0x27 && !(op == 0x24 && Packet.dst p != 16383) then .eq 73
  else
    let w := (b.reg .sw (offRoute (Packet.dst p))).toNat
    let tgt := bits w 47 36
    let unicast := fun n : Nat => if n = arrival then Route.loop else Route.eq n
    if !bitOf w 63 then .malformed
    else match bits w 62 60 with
      | 0 => if !b.live .sw tgt then .noRoute else unicast tgt
      | 1 => (match b.pick p tgt with
          | some n => unicast n
          | none => .noRoute)
      | 2 => if Packet.tc p == 1 || Packet.tc p == 3 then .eq 72
          else if op == 0x30 || op == 0x31 || op == 0x32 then .eq 74 else .malformed
      | 3 => if Packet.tc p == 7 then .mcast tgt else .malformed
      | _ => .malformed

/-- A multicast entry (R291). -/
def mcastEntry (b : Blk) (m : Nat) : Nat := (b.reg .sw (offMcast m)).toNat + (b.reg .sw (offMcast m + 8)).toNat * 2 ^ 64

/-- The ports of a multicast entry a packet of a partition may use: valid, of that partition, without the arrival port; none where
the entry refuses the packet. -/
def mcastPorts (b : Blk) (m pid arrival : Nat) : Option (List Nat) :=
  let w := b.mcastEntry m
  if bitOf w 127 && bits w 123 112 == pid then some ((upto 72).filter (fun i => bitOf w i && !(i == arrival))) else none

/-! ## Answers (R249) -/

/-- The switch's own answer to a request, with the status given. -/
def answerPacket (b : Blk) (p : Packet) (status : Nat) : Packet :=
  let op := Packet.opcode p
  let cpl := op == 0x02 || op == 0x03 || op == 0x0C
  let rop := if op == 0x01 then 0x10 else if cpl then 0x11 else 0x12
  let low := if cpl then lowResponse status (Packet.cmark p) (Packet.reqCplEn p == 1) (Packet.tc p == 3) 1 (Packet.reqTally p)
    else lowResponse status (Packet.cmark p) false false 0 0
  let lvl := if b.flag .sw (offRoute (Packet.src p)) 63 then b.levelTo (Packet.src p) else 2
  mkPacket { tc := 2, opcode := rop, part := Packet.part p, keyGen := Packet.keyGen p, plane := Packet.plane p, dst := Packet.src p,
             src := Packet.dst p, ctx := Packet.ctx p, epoch := Packet.epoch p, seq := Packet.seq p, tag := Packet.tag p,
             tagGen := Packet.tagGen p, deadline := (Packet.deadline p + lifetime64 lvl) % 65536, low := low }
    false (zeros 1)

/-- An answer put in the ANSWER queue of its ingress port, in a cell of that port's reserve. -/
def sendAnswer (b : Blk) (port : Nat) (p : Packet) : Blk :=
  let qs := b.qsetOf (Packet.part p)
  let (id, b) := b.storeCopy p port qs 1 1 .answer
  b.enqueue id { src := srcAnswer, eq := port, qset := qs, tc := 2 }

/-- Whether the answer reserve of a port is full (R257). -/
def answerFull (b : Blk) (port : Nat) : Bool := decide (64 ≤ b.sw.ansCells.get port 0)

/-! ## Internal sources -/

/-- A packet of an internal source takes its cells and enters its queues. -/
def storeInternal (b : Blk) (e : IntWait) (w : Reserve) : Blk :=
  let qs := b.qsetOf (Packet.part e.pkt)
  let (id, b) := b.storeCopy e.pkt e.src qs e.cells e.eqs.length w
  b.forEach e.eqs (fun b q => b.enqueue id { src := e.src, eq := q, qset := qs, tc := Packet.tc e.pkt })

/-- Cells of an internal source's reserve (R257). -/
def intReserve : Nat := 8192

/-- A packet of HOME, COLL or MGMT for its egresses, stored in that source's reserve; the source waits, in order, while the reserve cannot
hold it (R257). -/
def internalTo (b : Blk) (src : Nat) (p : Packet) (eqs : List Nat) (cells : Nat) : Blk :=
  let e : IntWait := { src := src, pkt := p, eqs := eqs, cells := cells }
  if eqs.isEmpty then b
  else if intReserve < b.sw.intCells.get src 0 + cells ∨ b.sw.intWait.any (fun x => x.src == src) = true then
    b.modSw (fun s => { s with intWait := s.intWait ++ [e] })
  else b.storeInternal e .internal

/-- Packets of internal sources that waited taken in as far as the reserves hold them, each source's in order. -/
def admitWaiting (b : Blk) : Blk :=
  let l := b.sw.intWait
  l.foldl (fun b e => b.internalTo e.src e.pkt e.eqs e.cells) (b.modSw (fun s => { s with intWait := [] }))

/-- A fragment of a chunk retained in reduction memory: its pointers are queued, no cell is taken (R274). -/
def retainedTo (b : Blk) (src : Nat) (p : Packet) (eqs : List Nat) : Blk :=
  if eqs.isEmpty then b else b.storeInternal { src := src, pkt := p, eqs := eqs, cells := 0 } .rmem

/-- A packet of an internal source routed by its DST_NODE (R250); without a live route it is discarded and counted. -/
def internalSend (b : Blk) (src : Nat) (p : Packet) : Blk :=
  match b.route p 127 with
  | .eq n => b.internalTo src p [n] (Packet.cells p)
  | .mcast _ => b.countDrop p
  | .malformed => b.countDrop p
  | .noRoute => (b.count .sw offRouteStat 31 0 1).countDrop p
  | .loop => b

/-! ## Ingress -/

/-- A packet discarded at ingress: its credits go back, and the partition's DROPS counts it. -/
def discardIn (b : Blk) (port : Nat) (p : Packet) : Blk := (b.owe .sw port (Packet.tc p) (Packet.slots p)).countDrop p

/-- Admission of one TC7 copy to a queue (R277): RED first, then the carve, then a spill where the queue is deep; answers whether it
is admitted and whether it must live in HBM. -/
def admitTc7 (b : Blk) (port : Nat) (p : Packet) (k : VoqKey) (asked : Option Nat) : Bool × Bool × Blk :=
  let (dr, b) := b.redDrop k (Packet.colour p)
  if dr then
    let b := (b.count .sw (offPort .sw port 0x880) 63 32 1).countDrop p
    (false, false, b.mirrorEvent p port k.eq 2 0 asked)
  else
    let carve := b.fld .sw (offPort .sw port 0x838) 45 24
    if b.sw.cells.get (8 * port + 7) 0 + Packet.cells p ≤ carve then (true, false, b)
    else if b.hasFlag k 62 && !b.spillRefused k then (true, true, b.count .sw (offPort .sw port 0x890) 63 32 1)
    else
      let b := b.when_ (b.hasFlag k 62) (fun b => b.count .sw (offPort .sw port 0x890) 31 0 1)
      let b := (b.count .sw (offPort .sw port 0x880) 31 0 1).countDrop p
      (false, false, b.mirrorEvent p port k.eq 2 0 asked)

/-- What a record of a stored copy will need kept with it: the stage that asked for its capture, and the depth of a VOQ before it (R297). -/
def noteCopy (b : Blk) (id eq depth : Nat) (asked : Option Nat) : Blk :=
  b.updCopy id (fun c => { c with asked := asked, depths := c.depths.set eq depth 0 })

/-- A TC7 packet enters its queues: each copy is admitted by itself; the admitted ones share one stored copy, those beyond the carve
live in HBM on their own (R273, R277). -/
def enqueueTc7 (b : Blk) (port : Nat) (p : Packet) (eqs : List Nat) (asked : Option Nat) : Blk :=
  let qs := b.qsetOf (Packet.part p)
  let step := fun (st : List Nat × List Nat × Blk) (e : Nat) =>
    let k : VoqKey := { src := port, eq := e, qset := qs, tc := 7 }
    let (ok, hbm, b) := st.2.2.admitTc7 port p k asked
    if !ok then (st.1, st.2.1, b) else if hbm then (st.1, st.2.1 ++ [e], b) else (st.1 ++ [e], st.2.1, b)
  let (buf, hbm, b) := eqs.foldl step ([], [], b)
  let b := if buf.isEmpty then b
    else
      let (id, b) := b.storeCopy p port qs (Packet.cells p) buf.length .carve
      b.forEach buf (fun b e =>
        let k : VoqKey := { src := port, eq := e, qset := qs, tc := 7 }
        let d := b.voqDepth k
        ((b.mirrorEvent p port e 1 d asked).noteCopy id e d asked).enqueue id k)
  b.forEach hbm (fun b e =>
    let k : VoqKey := { src := port, eq := e, qset := qs, tc := 7 }
    let d := b.voqDepth k
    let b := b.mirrorEvent p port e 1 d asked
    let (id, b) := b.storeCopy p port qs (Packet.cells p) 1 .hbm
    let b := (b.ovfWrite id (Packet.cells p)).noteCopy id e d asked
    b.putVoq { (b.voq k) with ents := (b.voq k).ents ++ [id] })

/-- The stages behind ROUTE for a packet with its egresses: colour, operators, mark, mirror, sample, queue. -/
def toQueues (b : Blk) (port : Nat) (p : Packet) (eqs : List Nat) : Blk :=
  let qs := b.qsetOf (Packet.part p)
  let (p, b) := b.colourStage p port
  let (p, dropped, asked, b) := b.operators port p
  let p := Packet.setH p 146 144 (Packet.hops p + 1)
  let eq0 := match eqs with
    | [e] => e
    | _ => 0xFF
  if Packet.tc p == 7 then
    if dropped then
      let b := (b.count .sw (offPort .sw port 0x888) 31 0 1).countDrop p
      (b.sampleFrame p port eq0).mirrorEvent p port eq0 2 0 asked
    else (b.sampleFrame p port eq0).enqueueTc7 port p eqs asked
  else
    let k : VoqKey := { src := port, eq := eq0, qset := qs, tc := Packet.tc p }
    let (p, b) := b.markStage port p k
    let b := b.sampleFrame p port eq0
    let d := b.voqDepth k
    let b := b.mirrorEvent p port eq0 1 d asked
    let (id, b) := b.storeCopy p port qs (Packet.cells p) 1 .carve
    (b.noteCopy id eq0 d asked).enqueue id k

/-- A packet held in its port's pipeline lane, behind those held before it (R249). -/
def holdLane (b : Blk) (port : Nat) (e : LaneEnt) : Blk :=
  b.modSw (fun s => { s with lanes := s.lanes.set port (s.lanes.get port [] ++ [e]) [] })

/-- A request refused by the switch: answered out of its ingress port (R249, R469); while the answer reserve is full it holds the lane. -/
def refuseRequest (b : Blk) (port : Nat) (p : Packet) (status : Nat) : Blk :=
  if b.answerFull port then b.holdLane port { pkt := p, status := some status }
  else
    let b := b.sendAnswer port (b.answerPacket p status)
    let b := b.owe .sw port (Packet.tc p) (Packet.slots p)
    let b := if status = 4 then b.count .sw (offPort .sw port 0x8A0) 63 32 1 else b.countDrop p
    b.mirrorEvent p port 0xFF 3 0 none

/-- Whether a packet is a TC1 or TC3 request. -/
def isRequest (p : Packet) : Bool := 1 ≤ Packet.opcode p && Packet.opcode p ≤ 0x0C

/-- CLASSIFY, PARTITION_CHECK and ROUTE, then the stages behind them (R247, R248, R250, R469). Every frame whose header can be read counts
toward its port's sample, also one that is answered or discarded here, without an egress (R301). -/
def pipeline (b : Blk) (port : Nat) (p : Packet) : Blk :=
  let malformed := ((b.owe .sw port (Packet.tc p) (Packet.slots p)).countDrop p).count .sw (offPort .sw port 0x10) 63 48 1
  if Packet.malformed p || Packet.plane p != b.swPlane then malformed
  else if Packet.hops p == 5 then ((b.sampleFrame p port 0xFF).discardIn port p).count .sw (offPort .sw port 0x18) 15 0 1
  else if (match opcodeRow (Packet.opcode p) with | some (_, _, _, dl) => dl | none => false) && expired (b.timeNs .sw) (Packet.deadline p)
    then ((b.sampleFrame p port 0xFF).discardIn port p).count .sw (offPort .sw port 0x8A0) 31 0 1
  else if b.pidAborted (Packet.part p) then
    let b := b.sampleFrame p port 0xFF
    if isRequest p then b.refuseRequest port p 8 else b.discardIn port p
  else if !b.carries port (Packet.part p) then
    if isRequest p then (b.sampleFrame p port 0xFF).refuseRequest port p 4 else malformed
  else
    let b := b.partCount (Packet.part p) (Packet.tc p) 0 1
    let b := b.partCount (Packet.part p) (Packet.tc p) 1 (Packet.size p)
    if Packet.tailMarked p then ((b.sampleFrame p port 0xFF).discardIn port p).count .sw (offPort .sw port 0x898) 63 32 1
    else match b.route p port with
      | .malformed => (b.discardIn port p).count .sw (offPort .sw port 0x10) 63 48 1
      | .loop => ((b.sampleFrame p port 0xFF).discardIn port p).count .sw offRouteStat 63 48 1
      | .noRoute => ((b.sampleFrame p port 0xFF).discardIn port p).count .sw offRouteStat 31 0 1
      | .eq n => b.toQueues port p [n]
      | .mcast m =>
        match b.mcastPorts m (Packet.part p) port with
        | none => ((b.sampleFrame p port 0xFF).discardIn port p).count .sw offRouteStat 47 32 1
        | some ports => b.toQueues port p (ports.filter (fun i => b.live .sw i))

/-- A packet in its port's lane: behind others it waits; otherwise it goes through the pipeline, or is given the answer it waited for. -/
def enterLane (b : Blk) (port : Nat) (e : LaneEnt) : Blk :=
  if !(b.sw.lanes.get port []).isEmpty then b.holdLane port e
  else match e.status with
    | some st => b.refuseRequest port e.pkt st
    | none => b.pipeline port e.pkt

/-- A port's lane goes on once the answer reserve has room: what it held enters again in order (R249). -/
def releaseLane (b : Blk) (port : Nat) : Blk :=
  let l := b.sw.lanes.get port []
  if l.isEmpty || b.answerFull port then b
  else l.foldl (fun b e => b.enterLane port e) (b.modSw (fun s => { s with lanes := s.lanes.set port [] [] }))

/-- What waits inside the switch for cells goes on (R249, R257). -/
def resumeWaiting (b : Blk) : Blk := (b.forEach (b.sw.lanes.map Prod.fst) (fun b n => b.releaseLane n)).admitWaiting

/-- A packet whose header has arrived at a port: its header check, the time unit for a link-local time message, the pipeline (R42, R243,
R488). -/
def ingress (b : Blk) (port : Nat) (p : Packet) : Blk :=
  let lost := b.owe .sw port (Packet.tc p) (Packet.slots p)
  if !Packet.hcrcOk p then lost.count .sw (offPort .sw port 0x10) 47 32 1
  else if Packet.linkLocal p then lost.timeUnit .sw port p
  else (b.releaseLane port).enterLane port { pkt := p, status := none }

/-- The header of a long packet in assembly at a port enters the pipeline before the tail (R269), unless the lane is held: `p` gives the
header, and what has arrived of the payload is taken from the assembly. The stored copies that come of it take the slots that follow. -/
def ingressCut (b : Blk) (port : Nat) (p : Packet) : Blk :=
  let q := b.port .sw port
  let have_ := q.asm.flatMap (fun s => beBytes 16 s.toNat)
  if q.cut.isNone && decide (2 ≤ q.asm.length) && have_.take 32 == beBytes 32 p.hdr.toNat && (b.sw.lanes.get port []).isEmpty
      && !(b.answerFull port) then
    let first := b.sw.nextCopy
    let b := b.ingress port { hdr := p.hdr, payload := have_.drop 32, tail := 0 }
    b.modPort .sw port (fun x => { x with cut := some ((b.sw.copies.filter (fun c =>
      decide (first ≤ c.id) && c.src == port && (c.where_ == .carve || c.where_ == .hbm))).map (fun c => c.id)) })
  else b

/-- Whether a part serves the fabric: started, not stopped, no device-fatal event (R14, R448, R508-R511). -/
def serving (b : Blk) (d : Dev) : Bool :=
  let t := (b.core d).boot
  t.released && t.started && t.halt == .none && !b.flag d offStatus 10

end Blk

/-! ## Meaning -/

/-- SWITCH_INGRESS (R247, R269): a long packet given with less payload than its LEN says is one whose tail has not arrived. -/
def execSwitchIngress (port : Nat) (p : Packet) (s : State) : Res :=
  s.onIf (hasPort .sw port) (fun b =>
    if b.serving .sw && b.portUp .sw port then (if Packet.whole p then b.ingress port p else b.ingressCut port p) else b)

end Sys2Proof.Machine
end

