-- ==== Sys2Proof/Machine/SwitchCore.lean ====
section
/-! DEFINITION. Behind the queues of the switch: spill and refill, arbitration and calendars, frames found bad, congestion maps and
samples (R262-R273, R294-R303, R349, R350). -/

namespace Sys2Proof.Machine

open Sys2Proof

namespace Blk

/-! ## Spill and refill (R258, R266-R268) -/

/-- A pointer in a VOQ replaced by another copy's. -/
def swapPointer (b : Blk) (k : VoqKey) (old new : Nat) : Blk :=
  let q := b.voq k
  b.putVoq { q with ents := mapFirst (fun x => x == old) (fun _ => new) q.ents }

/-- A pointer removed from a VOQ. -/
def removePointer (b : Blk) (k : VoqKey) (id : Nat) : Blk :=
  let q := b.voq k
  b.putVoq { q with ents := without q.ents id }

/-- The HBM write of a spilled copy is complete: the spilled copy lives in HBM on its own, and the stored one is let go. -/
def spillDone (b : Blk) (id : Nat) : Blk :=
  match b.sw.spills.find? (fun e => e.1 == id), b.findCopy id with
  | some (_, k), some c =>
    let b := b.modSw (fun s => { s with spills := s.spills.erase (id, k) })
    if (b.voq k).ents.contains id then
      let (id2, b) := b.storeCopy c.pkt c.src c.qset c.cells 1 .hbm
      ((b.ovfWrite id2 c.cells).swapPointer k id id2).unref id
    else b
  | _, _ => b

/-- A packet of a queue discarded: its pointer goes, the copy is let go, DROPS counts it. -/
def dropQueued (b : Blk) (k : VoqKey) (c : Copy) : Blk := ((b.removePointer k c.id).unref c.id).countDrop c.pkt

/-- What reading a packet back from the overflow finds: each corrected cell is counted, each uncorrectable one a transient event (R329,
R330). Errors name the cells of the packet; a line the scrub found bad still fails. -/
def overflowRead (b : Blk) (c : Copy) (ecc : Ecc) : Bool × Blk :=
  let bad := (upto c.cells).filter (fun j => ecc.ue.contains j || b.sw.badLines.contains (b.ovfLine c.id j))
  let b := b.forEach ((upto c.cells).filter (fun j => ecc.ce.contains j)) (fun b j => b.lineCe (b.ovfLine c.id j))
  (!bad.isEmpty, b.forEach bad (fun b j => b.plainUe (b.ovfLine c.id j)))

/-- The oldest packet a VOQ holds in HBM read back into the refill reserve: discarded when its partition is aborted, its DEADLINE
has expired or the read is uncorrectable. -/
def refillOne (b : Blk) (k : VoqKey) (ecc : Ecc) : Blk :=
  match (b.voq k).ents.find? b.copyInHbm with
  | none => b
  | some id =>
    match b.findCopy id with
    | none => b
    | some c =>
      if (b.hasFlag k 62 && decide (b.queueFld k 26 15 * 32 ≤ b.voqBufDepth k)) || decide (32768 < b.sw.refillCells + c.cells) then b
      else if c.have_ < Packet.slots c.pkt then b
      else if b.pidAborted c.part then b.dropQueued k c
      else if (match opcodeRow (Packet.opcode c.pkt) with | some (_, _, _, dl) => dl | none => false)
          && expired (b.timeNs .sw) (Packet.deadline c.pkt) then
        (b.dropQueued k c).when_ (decide (k.src < 72)) (fun b => b.count .sw (offPort .sw k.src 0x8A0) 31 0 1)
      else
        let (bad, b) := b.overflowRead c ecc
        if bad then (b.dropQueued k c).when_ (decide (k.src < 72)) (fun b => b.count .sw (offPort .sw k.src 0x898) 63 32 1)
        else (b.updCopy id (fun c => { c with where_ := .refill })).moveCells .refill c.src (Packet.tc c.pkt) c.cells false

/-! ## Calendars (R263, R349, R350, R377) -/

/-- Slot k that is current at a time (R350). -/
def calSlotAt (b : Blk) (c t : Nat) : Nat :=
  let (len, st) := b.calHead c
  if st = 0 then 0 else t / st % len

/-- The QSET that owns the current slot of an egress, if any, and the time left in which a packet may still leave: to the end of the
throttled slot, or in an open slot without throttle to the next owned slot. -/
def calWindow (b : Blk) (eq : Nat) : Option Nat × Option Nat :=
  let c := b.calOf eq
  if 16 ≤ c then (none, none)
  else
    let (len, st) := b.calHead c
    if st = 0 then (none, none)
    else
      let t := b.timeNs .sw
      let k := t / st % len
      let e := t % st
      let step := b.fld .sw offSecState 18 16
      let own := b.calOwner c k
      let left := st * (16 - step) / 16 - e
      if own ≠ 0xFF then (some own, some left)
      else if step ≠ 0 then (none, some left)
      else
        let openAfter := (upto (len - 1)).takeWhile (fun j => b.calOwner c ((k + 1 + j) % len) == 0xFF)
        if openAfter.length + 1 ≥ len then (none, none) else (none, some (left + st * openAfter.length))

/-- Time a packet takes on a port's line, ns, rounded up: 15 slots a flit, 1.28 ns a flit at width 8, twice that at width 4. -/
def lineTime (b : Blk) (eq : Nat) (p : Packet) : Nat :=
  let flits := (Packet.slots p + 14) / 15
  let per := if eq < 72 ∧ b.fld .sw (offPort .sw eq 0) 55 52 = 4 then 256 else 128
  (flits * per + 99) / 100

/-! ## Arbitration (R262) -/

/-- Slots of a long packet that are there with its header and its first cell (R269). -/
def cutSlots : Nat := 6

/-- A VOQ of an egress that could send its first packet now: it is in the buffer, is not being spilled, fits the calendar, and its
credits are there. A long packet may start with its first cell at a port outside calendar limits; a calendar window and an internal egress
take it whole (R263, R269). A request for a home-agent engine that has stopped waits in its HOME queue (R429). -/
def headOf (b : Blk) (eq : Nat) (win : Option Nat × Option Nat) (q : Voq) : Option Copy :=
  match q.ents with
  | [] => none
  | id :: _ =>
    match b.findCopy id with
    | none => none
    | some c =>
      let fits := (match win.1 with | some o => q.key.qset == o | none => true)
        && (match win.2 with | some l => decide (b.lineTime eq c.pkt ≤ l) | none => true)
      let credit := decide (72 ≤ eq) || Packet.tc c.pkt == 7
        || decide (Packet.slots c.pkt ≤ (b.port .sw eq).credits.get (Packet.tc c.pkt) 0)
      let calOk := !(b.hasFlag q.key 61) || win.1.isSome
      let here := decide ((if 72 ≤ eq ∨ win.2.isSome = true then Packet.slots c.pkt else min cutSlots (Packet.slots c.pkt)) ≤ c.have_)
      let stopped := eq == 72 && b.homeStopped (Packet.offset c.pkt) (Packet.reqBytes c.pkt)
      if stopped || c.where_ == .hbm || b.sw.spills.any (fun e => e.1 == id && e.2 = q.key) || !fits || !credit || !calOk || !here then none else some c

/-- The queues of an egress that could send, with their first packets. -/
def ready_ (b : Blk) (eq : Nat) : List (VoqKey × Copy) :=
  let win := b.calWindow eq
  (b.sw.voqs.filter (fun q => q.key.eq == eq)).filterMap (fun q => (b.headOf eq win q).map (fun c => (q.key, c)))

/-- Tokens of a strict class at an egress (R265): class 6 or 0. -/
def strictLevel (b : Blk) (eq tc : Nat) : Nat :=
  let r := b.reg .sw (offPort .sw eq 0x840)
  let (rate, burst) := if tc = 6 then (getF r 63 48, getF r 47 32) else (getF r 31 16, getF r 15 0)
  refillTokens (b.sw.strict.find (2 * eq + tc / 6)) (b.now .sw) rate (256 * burst)

/-- A strict packet's bytes taken from its bucket. -/
def spendStrict (b : Blk) (eq tc bytes : Nat) : Blk :=
  if 72 ≤ eq then b
  else
    let lvl := b.strictLevel eq tc - 80 * bytes
    let t := b.now .sw
    b.modSw (fun s => { s with strict := s.strict.insert (2 * eq + tc / 6) { lvl := lvl, at_ := t } })

def arb (b : Blk) (eq : Nat) : Arb :=
  b.sw.arbs.get eq { deficit := [], turn := 0, fresh := true, nextSrc := [], calSlot := 0 }

def putArb (b : Blk) (eq : Nat) (a : Arb) : Blk :=
  b.modSw (fun s => { s with arbs := s.arbs.set eq a { deficit := [], turn := 0, fresh := true, nextSrc := [], calSlot := 0 } })

/-- Group of a queue in the deficit round robin. -/
def groupOf (k : VoqKey) : Nat := 8 * k.qset + k.tc

/-- The queue of a group whose turn it is: sources in rising order from the one after the last served (R262 step 4). -/
def rrPick (a : Arb) (g : Nat) (l : List (VoqKey × Copy)) : Option (VoqKey × Copy) :=
  let mine := l.filter (fun e => groupOf e.1 == g)
  let from_ := a.nextSrc.get g 0
  ((upto 76).map (fun i => (from_ + i) % 76)).findSome? (fun src => mine.find? (fun e => e.1.src == src))

/-- The packet a strict class sends: among the queues whose first packet is within the tokens, the lowest QSET, its sources in turn
(R262 steps 2 and 4). -/
def strictPick (b : Blk) (eq tc : Nat) (l : List (VoqKey × Copy)) : Option (VoqKey × Copy) :=
  let ok := l.filter (fun e => e.1.tc == tc && (decide (72 ≤ eq) || decide (80 * Packet.size e.2.pkt ≤ b.strictLevel eq tc)))
  match (upto 32).find? (fun q => ok.any (fun e => e.1.qset == q)) with
  | none => none
  | some q => rrPick (b.arb eq) (8 * q + tc) ok

/-- The turn after a strict class's packet has been taken from a source. -/
def strictTurn (b : Blk) (eq : Nat) (k : VoqKey) : Blk :=
  let a := b.arb eq
  b.putArb eq { a with nextSrc := a.nextSrc.set (groupOf k) ((k.src + 1) % 76) 0 }

/-- The deficit round robin: groups in rising order from the one whose turn it is, each adding its quantum when its turn begins, until
one can afford its first packet. -/
def drr (b : Blk) (eq : Nat) (l : List (VoqKey × Copy)) : Nat → Arb → Option (VoqKey × Copy) × Arb
  | 0, a => (none, a)
  | fuel + 1, a =>
    let gs := (upto 256).filter (fun g => l.any (fun e => groupOf e.1 == g))
    match gs.find? (fun g => decide (a.turn ≤ g)) with
    | none => if gs.isEmpty then (none, a) else drr b eq l fuel { a with turn := 0, fresh := true }
    | some g =>
      let starts := a.fresh || g != a.turn
      match rrPick a g l with
      | none => (none, a)
      | some (k, c) =>
        let d := a.deficit.get g 0 + (if starts then 256 * b.queueFld k 54 43 else 0)
        if Packet.size c.pkt ≤ d then
          (some (k, c), { a with deficit := a.deficit.set g (d - Packet.size c.pkt) 0, turn := g, fresh := false,
                                 nextSrc := a.nextSrc.set g ((k.src + 1) % 76) 0 })
        else drr b eq l fuel { a with deficit := a.deficit.set g d 0, turn := g + 1, fresh := true }

/-- A group whose queues hold nothing keeps no deficit. -/
def dropDeficits (b : Blk) (eq : Nat) (a : Arb) : Arb :=
  { a with deficit := a.deficit.filter (fun e => b.sw.voqs.any (fun q => q.key.eq == eq && groupOf q.key == e.1 && !q.ents.isEmpty)) }

/-- The packet an egress chooses: strict classes first, then the deficit round robin (R262). -/
def choose (b : Blk) (eq : Nat) : Option (VoqKey × Copy × Bool) × Blk :=
  let l := b.ready_ eq
  match b.strictPick eq 6 l with
  | some (k, c) => (some (k, c, true), b.strictTurn eq k)
  | none =>
    match b.strictPick eq 0 l with
    | some (k, c) => (some (k, c, true), b.strictTurn eq k)
    | none =>
      let (r, a) := b.drr eq l 5200 (b.dropDeficits eq (b.arb eq))
      (r.map (fun e => (e.1, e.2, false)), b.putArb eq a)

/-- The management processor answers a routed TIME_SYNC (R490): a TIME_REPLY with the stamp of its ingress, routed back. -/
def probeAnswer (b : Blk) (c : Copy) : Blk :=
  if Packet.opcode c.pkt == 0x30 then b.internalSend srcMgmt (b.timeReplyPacket .sw c.pkt b.swPlane (Packet.src c.pkt) c.stamp) else b

/-- A packet leaves its VOQ for its egress: a packet of an aborted partition is discarded there (R469); at a port it begins to be
sent; at an internal egress it is handed over whole. -/
def depart (b : Blk) (eq : Nat) (k : VoqKey) (c : Copy) : Blk :=
  let b := b.removePointer k c.id
  let own := k.src == srcAnswer || k.src == srcMgmt || k.src == srcHome
  if b.pidAborted c.part && !own then (b.unref c.id).countDrop c.pkt
  else if eq < 72 then
    let b := b.partCount c.part (Packet.tc c.pkt) 2 1
    let b := b.partCount c.part (Packet.tc c.pkt) 3 (Packet.size c.pkt)
    let used := b.sw.util.get (8 * eq + k.tc) 0 + Packet.slots c.pkt
    let b := b.when_ (!b.pidMasked c.part && b.flag .sw offCmapCtl 16) (fun b => b.modSw (fun s => { s with util := s.util.set (8 * eq + k.tc) used 0 }))
    b.modPort .sw eq (fun p => { p with tx := p.tx ++ [{ pkt := c.pkt, sent := 0, have_ := c.have_, copy := some c.id, bad := none }] })
  else ((b.emit (.handed eq c.src c.pkt)).when_ (eq == 74) (fun b => b.probeAnswer c)).unref c.id

/-- One turn of an egress arbiter, after what waited for cells has gone on: nothing when the egress cannot start a packet or no queue can
send. -/
def arbitrate (b : Blk) (eq : Nat) : Blk :=
  let b := b.resumeWaiting
  if eq < 72 ∧ (!b.portUp .sw eq || !(b.port .sw eq).tx.isEmpty) = true then b
  else
    match b.choose eq with
    | (none, b) => b
    | (some (k, c, strict), b) =>
      let b := if strict then b.spendStrict eq (Packet.tc c.pkt) (Packet.size c.pkt) else b
      b.depart eq k c

/-! ## Frames found bad (R269, R271) -/

/-- Every pointer to a copy removed from the queues; how many there were. -/
def clearPointers (b : Blk) (id : Nat) : Nat × Blk :=
  let ks := (b.sw.voqs.filter (fun q => q.ents.contains id)).map (fun q => q.key)
  (ks.length, b.forEach ks (fun b k => b.removePointer k id))

/-- The ports that have begun to send a copy. -/
def begunPorts (b : Blk) (id : Nat) : List Nat :=
  (upto 72).filter (fun n => (b.port .sw n).tx.any (fun t => t.copy == some id && decide (0 < t.sent)))

/-- The ports that hold a copy they have not begun. -/
def waitingPorts (b : Blk) (id : Nat) : List Nat :=
  (upto 72).filter (fun n => (b.port .sw n).tx.any (fun t => t.copy == some id && t.sent == 0))

/-- A frame found bad: copies not begun are discarded, copies begun are finished with a marked tail and counted. The first reason stays, and
an error of an HBM read is counted as such (R330). Reason 0 tells of an error the ECC corrected: the frame is sound, and the event is
counted (R254, log 134). -/
def foundBad (b : Blk) (id reason : Nat) : Blk :=
  if reason = 0 then b.modSw (fun s => { s with bufCe := s.bufCe + 1 })
  else match b.findCopy id with
  | none => b
  | some c =>
    if c.bad.isSome then b else
    let b := if reason = 3 ∧ c.where_ = .refill then
        let (r, b) := b.fresh
        b.plainUe (b.ovfLine id (Config.freeNat r % c.cells))
      else b
    let begun := b.begunPorts id
    let waiting := b.waitingPorts id
    let (n, b) := b.clearPointers id
    let b := b.forEach waiting (fun b p => b.modPort .sw p (fun q => { q with tx := q.tx.filter (fun t => !(t.copy == some id && t.sent == 0)) }))
    let lost := n + waiting.length
    let b := (upto lost).foldl (fun b _ => (b.unref id).countDrop c.pkt) b
    if begun.isEmpty then
      (b.when_ (lost == 0) (fun b => (b.unref id).countDrop c.pkt)).when_ (decide (c.src < 72))
        (fun b => b.count .sw (offPort .sw c.src 0x898) 63 32 1)
    else
      let b := b.updCopy id (fun c => { c with bad := some reason })
      b.forEach begun (fun b p =>
        let b := b.modPort .sw p (fun q => { q with tx := q.tx.map (fun t => if t.copy == some id then { t with bad := some reason } else t) })
        let b := b.count .sw (offPort .sw p 0x898) 31 0 1
        b.mirrorAt c.pkt c.src p 4 (c.depths.get p 0) c.asked c.stamp)

/-! ## Congestion maps (R294, R295) -/

/-- Bytes of one record: tile t, class c; `len` is the time of the interval over which a port's shares are taken. -/
def cmapRecord (b : Blk) (t c : Nat) (len : Nat → Nat) : List Byte :=
  leBytes 8 (b.timeNs .sw) ++ (upto 4).flatMap (fun i =>
    let port := 4 * t + i
    let key := 8 * port + c
    let a := b.sw.cmap.get key CmapAcc.zero
    let avg := if a.samples = 0 then a.depth else a.sum / a.samples
    let per := if b.fld .sw (offPort .sw port 0) 55 52 = 4 then 256 else 128
    let util := if len port = 0 then 0 else min 1000 (b.sw.util.get key 0 * per * 1000 / (1500 * len port))
    let lack := if len port = 0 then 0 else min 1000 (a.lackNs * 1000 / len port)
    leBytes 4 a.maxD ++ leBytes 4 avg ++ leBytes 2 (min a.marks 0xFFFF) ++ leBytes 2 lack ++ leBytes 2 util)

/-- An interval begins (R294): its length is INTERVAL as it stands now, and nothing but the depths is kept. -/
def cmapBegin (b : Blk) : Blk :=
  let us := b.fld .sw offCmapCtl 9 0
  let now := b.now .sw
  let keep := fun a : CmapAcc => { a with maxD := a.depth, sum := 0, samples := 0, marks := 0, lackNs := 0 }
  b.modSw (fun s => { s with cmapFrom := now, cmapLen := us, cmapAt := now + 1000 * us, util := [],
                             cmap := s.cmap.map (fun e => (e.1, keep e.2)) })

/-- The time of the interval that ends, as a port's shares take it (R295). -/
def shareTime (b : Blk) (port : Nat) : Nat :=
  let len := b.now .sw - b.sw.cmapFrom
  let c := b.calOf port
  let t := b.timeNs .sw
  if 16 ≤ c then len else b.openTime c t - b.openTime c (t - len)

/-- An interval boundary: every record written to the idle bank, BANK toggled, SEQ advanced, the gathering begun again. -/
def cmapEnd (b : Blk) : Blk :=
  if !b.flag .sw offCmapCtl 16 || decide (b.now .sw < b.sw.cmapAt) then b
  else
    let bank := 1 - b.fld .sw offCmapCtl 17 17
    let b := b.forBelow 72 (fun b e => b.forBelow 8 (fun b c => b.cmapTouch e c))
    let b := b.forBelow 18 (fun b t => b.forBelow 8 (fun b c => b.putBytes .sw (offCmap bank t c) (b.cmapRecord t c b.shareTime)))
    let b := b.setFld .sw offCmapCtl 17 17 bank
    (b.wrapCount .sw offCmapCtl 63 32 1).cmapBegin

/-- SW_CMAP_CTL written (R294): ENABLE from 0 to 1 begins an interval with the depths as they stand; INTERVAL acts from the next boundary
on. -/
def writeCmapCtl (b : Blk) (v : Nat) : Blk :=
  let was := b.flag .sw offCmapCtl 16
  let b := b.writeFields .sw offCmapCtl v
  if was || !b.flag .sw offCmapCtl 16 then b
  else
    let b := (b.modSw (fun s => { s with cmap := [] })).cmapBegin
    (b.forEach b.sw.voqs (fun b q => b.cmapTouch q.key.eq q.key.tc)).cmapBegin

/-! ## Samples (R303) -/

/-- Whether a part's DMA can proceed (R440). -/
def dmaOk (b : Blk) (d : Dev) : Bool := (b.core d).busMaster && (b.core d).pcieUp

/-- The oldest sample written to the host's queue and announced, or lost: at a full queue, or while DMA waits (R303, R440). -/
def writeSample (b : Blk) : Blk :=
  match b.sw.samples with
  | [] => b
  | e :: rest =>
    if e.open_.isSome then b else
    let b := (b.modSw (fun s => { s with samples := rest, sampleCells := s.sampleCells - e.cells })).moveFree e.cells true
    let tail := b.fld .sw offSamplePtr 44 32
    let head := b.fld .sw offSamplePtr 12 0
    if (tail + 8192 - head) % 8192 = 4096 ∨ b.dmaOk .sw = false then b.count .sw offSampleStat 63 32 1
    else
      let addr := b.fld .sw offSampleQbase 63 20 * 2 ^ 20 + 256 * (tail % 4096)
      let b := b.emit (.dma .sw addr e.bytes)
      (b.setFld .sw offSamplePtr 44 32 (tail + 1)).sendVector .sw 3

/-- ENABLE of the swatch ring written (R299): refused while SIZE_MIB is 0; from 0 to 1 it zeroes WR and RD. -/
def enableSwatch (b : Blk) (on : Bool) : Blk :=
  if !on then b.setFlag .sw offSwatchCtl 0 false
  else if b.fld .sw offSwatchCtl 63 32 = 0 then b.setFlag .sw offSwatchCtl 0 false
  else if b.flag .sw offSwatchCtl 0 then b
  else ((b.setFlag .sw offSwatchCtl 0 true).setFld .sw offSwatchWr 39 0 0).setFld .sw offSwatchRd 39 0 0

/-- The slot of a calendar that is current taken by every egress of that calendar (R350). -/
def startCalSlot (b : Blk) (c : Nat) : Blk :=
  let k := b.calSlotAt c (b.timeNs .sw)
  b.forEach ((upto 75).filter (fun e => b.calOf e == c)) (fun b e => b.putArb e { (b.arb e) with calSlot := k })

end Blk

/-! ## Meanings -/

/-- SPILL_COMPLETE (R258, R266). -/
def execSpillComplete (copy : Nat) (s : State) : Res := s.on (fun b => b.spillDone copy)

/-- REFILL (R266-R268, R329, R330). -/
def execRefill (q : VoqKey) (ecc : Ecc) (s : State) : Res := s.onIf (hasVoq q) (fun b => if b.serving .sw then b.refillOne q ecc else b)

/-- SAMPLE_ENTRY_WRITE (R303). -/
def execSampleEntryWrite (s : State) : Res := s.on (fun b => b.writeSample)

/-- EGRESS_ARBITRATE (R262). -/
def execEgressArbitrate (eq : Nat) (s : State) : Res := s.onIf (hasEq eq) (fun b => if b.serving .sw then b.arbitrate eq else b)

/-- FRAME_FOUND_BAD (R254, R269). -/
def execFrameFoundBad (copy reason : Nat) (s : State) : Res := s.on (fun b => b.foundBad copy reason)

/-- CMAP_INTERVAL_END (R294). -/
def execCmapIntervalEnd (s : State) : Res := s.on (fun b => b.cmapEnd)

/-- SWATCH_ENABLE (R299). -/
def execSwatchEnable (on : Bool) (s : State) : Res := s.on (fun b => b.hostWrite .sw (fun b => b.enableSwatch on))

end Sys2Proof.Machine
end

