-- ==== Sys2Proof/Machine/Receive.lean ====
section
/-! DEFINITION. The receiving side of the link layer: slots taken out of flits, packets assembled, frames that enter the pipeline before
their tail (R43, R47, R51, R269, R271, R412). -/

namespace Sys2Proof.Machine

open Sys2Proof

namespace Blk

/-! ## Frames still arriving (R269) -/

/-- A slot that has arrived given to the stored copies of its frame, to the ports that send them, and to a sample of it. -/
def feedCopies (b : Blk) (n : Nat) (ids : List Nat) (i : Nat) (x : BitVec 128) : Blk :=
  let b := b.modSw (fun s => { s with
    copies := s.copies.map (fun c => if ids.contains c.id then { c with pkt := Packet.addSlot c.pkt i x, have_ := i + 1 } else c),
    samples := s.samples.map (fun e => if e.open_ == some n && decide (i < 14) then
      { e with bytes := overlay e.bytes (64 + 16 * (i - 2)) (beBytes 16 x.toNat) } else e) })
  b.forBelow 72 (fun b m =>
    if (b.port .sw m).tx.any (fun t => t.copy.any (fun id => ids.contains id)) then
      b.modPort .sw m (fun p => { p with tx := p.tx.map (fun t =>
        if t.copy.any (fun id => ids.contains id) then { t with pkt := Packet.addSlot t.pkt i x, have_ := i + 1 } else t) })
    else b)

/-- No sample of a port's frame waits for payload any more. -/
def closeSamples (b : Blk) (n : Nat) : Blk :=
  b.modSw (fun s => { s with samples := s.samples.map (fun e => if e.open_ == some n then { e with open_ := none } else e) })

/-- A frame that entered the pipeline before its tail is whole: one that arrives marked is found bad with the reason it carries; one whose
tail holds a reserved encoding is malformed, and its copies are found bad with reason 0x1 (log 133); a copy for a deep queue may be
spilled from now on (R266). -/
def cutDone (b : Blk) (n : Nat) (ids : List Nat) (pk : Packet) : Blk :=
  let b := b.closeSamples n
  if 2 ≤ Packet.tmark pk ∨ 4 ≤ Packet.tmReason pk then
    (b.count .sw (offPort .sw n 0x10) 63 48 1).forEach ids (fun b id => b.foundBad id 1)
  else if Packet.tmark pk = 1 then b.forEach ids (fun b id => b.foundBad id (Packet.tmReason pk))
  else b.forEach ids (fun b id =>
    b.forEach ((b.sw.voqs.filter (fun q => q.ents.contains id)).map (fun q => q.key)) (fun b k => b.trySpill id k))

/-- A packet in assembly whose rest never comes: what of it entered the pipeline is found bad with the reason given; of a packet that did
not, the slots held go back. -/
def dropAssembly (b : Blk) (d : Dev) (n reason : Nat) : Blk :=
  let p := b.port d n
  match p.asm with
  | [] => b
  | s :: _ =>
    let b := b.modPort d n (fun p => { p with asm := [], cut := none })
    match p.cut with
    | some ids => (b.closeSamples n).forEach ids (fun b id => b.foundBad id reason)
    | none => b.owe d n (bits s.toNat 125 123) (slotsNeeded [s])

/-! ## Slots and flits (R47, R51) -/

/-- Acknowledgement, NAK and credits that an accepted flit carries. -/
def takeControl (b : Blk) (d : Dev) (n : Nat) (fl : Flit) : Blk :=
  let b := b.takeAck d n fl
  let b := if Flit.nak fl && !(b.port d n).replay.isEmpty then b.resendAll d n else b
  if Flit.crV fl && decide (Flit.crTc fl < 7) then
    let b := b.modPort d n (fun p => { p with credits := p.credits.set (Flit.crTc fl) (p.credits.get (Flit.crTc fl) 0 + Flit.crCount fl) 0 })
    match d with
    | .sw => b.cmapTouch n (Flit.crTc fl)
    | .ep => b
  else b

/-- One slot taken into the packet in assembly. The slots of a packet count as held from its header on (R51, R412); a packet that is whole is
handed on, unless its header has entered the pipeline already: then its stored copies take the slot. A header that begins before the last
packet ended leaves that packet malformed. -/
def takeSlot (b : Blk) (d : Dev) (n : Nat) (s : BitVec 128) (isStart : Bool) : Blk :=
  let b := if isStart && !(b.port d n).asm.isEmpty then (b.count d (offPort d n 0x10) 63 48 1).dropAssembly d n 1 else b
  let p := b.port d n
  let asm := if isStart then [s] else if p.asm.isEmpty then [] else p.asm ++ [s]
  if asm.isEmpty then b
  else
    let tc := bits s.toNat 125 123
    let b := b.modPort d n (fun p => { p with
      asm := asm, rxHeld := if isStart ∧ tc < 7 then p.rxHeld.set tc (p.rxHeld.get tc 0 + slotsNeeded [s]) 0 else p.rxHeld })
    let b := match p.cut with
      | some ids => b.feedCopies n ids (asm.length - 1) s
      | none => b
    if 2 ≤ asm.length ∧ asm.length = slotsNeeded asm then
      let b := b.modPort d n (fun p => { p with asm := [], cut := none })
      match p.cut with
      | some ids => b.cutDone n ids (ofSlots asm)
      | none => b.emit (.received d n (ofSlots asm))
    else b

/-- A DATA flit at a port that is UP (R47). -/
def receiveData (b : Blk) (d : Dev) (n : Nat) (fl : Flit) : Blk :=
  let p := b.port d n
  if !Flit.fcrcOk fl then
    (b.count d (offPort d n 0x10) 31 16 1).modPort d n (fun p => { p with owedNak := true })
  else if Flit.ftype fl ≠ 0 ∨ Flit.lseq fl ≠ (p.rxLast + 1) % 4096 then b.modPort d n (fun p => { p with owedNak := true })
  else
    let b := b.modPort d n (fun p => { p with rxLast := Flit.lseq fl, owedAck := true })
    let b := b.takeControl d n fl
    b.forBelow 15 (fun b i => b.takeSlot d n (Flit.slot fl i) (bitOf (Flit.start fl) i))

/-- A CTRL flit at a port that is UP: discarded without a NAK when its FCRC is bad (R47). -/
def receiveCtrl (b : Blk) (d : Dev) (n : Nat) (fl : Flit) : Blk :=
  if Flit.fcrcOk fl && Flit.ftype fl == 1 then b.takeControl d n fl else b

end Blk

/-! ## Meanings -/

/-- DATA_FLIT_RECEIVE (R47). -/
def execDataFlitReceive (d : Dev) (port : Nat) (f : Flit) (s : State) : Res :=
  s.onIf (hasPort d port) (fun b => if b.portUp d port then b.receiveData d port f else b)

/-- CTRL_FLIT_RECEIVE (R47, R51). -/
def execCtrlFlitReceive (d : Dev) (port : Nat) (f : Flit) (s : State) : Res :=
  s.onIf (hasPort d port) (fun b => if b.portUp d port then b.receiveCtrl d port f else b)


end Sys2Proof.Machine
end

