-- ==== Sys2Proof/Machine/Optics.lean ====
section
/-! DEFINITION. Ports, wavelengths, leaky buckets and laser inputs: bring-up, recovery, substitution and retirement (R404-R423, R288,
R49, R376, R378). -/

namespace Sys2Proof.Machine

open Sys2Proof

namespace Blk

/-! ## Schedule events (R378) -/

/-- A schedule-event record written by the switch, with the time it carries. -/
def schedEventAt (b : Blk) (time type arg : Nat) : Blk :=
  let e := b.fld .sw offSchedPtr 31 0
  let base := offSched + 0x20 * (e % 64)
  let b := b.putReg .sw base time
  let b := b.putReg .sw (base + 8) (type % 256 + arg % 256 * 2 ^ 8 + e * 2 ^ 32)
  let b := b.putReg .sw (base + 16) 0
  let b := b.putReg .sw (base + 24) 0
  (b.setFld .sw offSchedPtr 31 0 (e + 1)).sendVector .sw 4

/-- A schedule-event record of now. -/
def schedEvent (b : Blk) (type arg : Nat) : Blk := b.schedEventAt (b.timeNs .sw) type arg

/-- A PORT_DOWN or PORT_UP record, on the switch. -/
def portEvent (b : Blk) (d : Dev) (n : Nat) (up : Bool) : Blk :=
  match d with
  | .sw => b.schedEvent (if up then 7 else 6) n
  | .ep => b

/-! ## Wavelength registers -/

def wlOff (d : Dev) (n w : Nat) : Nat := offPort d n (0x100 + 0x10 * w)

/-- ROLE of a wavelength: 0 idle, 1 active, 2 spare, 3 retired (R417). -/
def wlRole (b : Blk) (d : Dev) (n w : Nat) : Nat := b.fld d (wlOff d n w) 63 62

def setWl (b : Blk) (d : Dev) (n w role stripe : Nat) : Blk := (b.setFld d (wlOff d n w) 63 62 role).setFld d (wlOff d n w) 58 56 stripe

/-- Wavelengths of the receive direction with a role. -/
def wlWith (b : Blk) (d : Dev) (n : Nat) (roles : List Nat) : List Nat := (upto 9).filter (fun w => roles.contains (b.wlRole d n w))

/-! ## Levels of buckets (R418, R419) -/

/-- Number of a bucket among those whose level is wider than its register field. -/
def bucketKey : BucketId → Nat
  | .wlUcw n w => 16 * n + w
  | .wlSer n w => 16 * n + w
  | .portRcv n => 2048 + n
  | .tile t => 4096 + t
  | .engine e => e
  | .hbmPc pc => pc

/-- The level of a bucket: a count up to THRESHOLD, whatever its register field can show (R418). -/
def bucketLevel (b : Blk) (d : Dev) (k : BucketId) : Nat :=
  match k with
  | .wlUcw n w => b.fld d (wlOff d n w) 55 40
  | .engine e => b.sw.engLvl.get e 0
  | .hbmPc pc => b.sw.pcLvl.get pc 0
  | _ => (b.core d).lvls.get (bucketKey k) 0

def putLevel (b : Blk) (d : Dev) (k : BucketId) (v : Nat) : Blk :=
  b.modCore d (fun c => { c with lvls := c.lvls.set (bucketKey k) v 0 })

/-- A bucket's level set, and shown: a field too narrow for it shows its largest value (log 135). -/
def setBucketLevel (b : Blk) (d : Dev) (k : BucketId) (v : Nat) : Blk :=
  match k with
  | .wlUcw n w => b.setFld d (wlOff d n w) 55 40 v
  | .wlSer n w => (b.putLevel d k v).setFld d (wlOff d n w) 39 32 (min v 255)
  | .portRcv n => (b.putLevel d k v).setFld d (offPort d n 0) 25 16 (min v 1023)
  | .tile t => (b.putLevel d k v).setFld .sw (offTileStatus t) 47 40 (min v 255)
  | .engine e => b.modSw (fun s => { s with engLvl := s.engLvl.set e v 0 })
  | .hbmPc pc => b.modSw (fun s => { s with pcLvl := s.pcLvl.set pc v 0 })

/-! ## Retired wavelengths -/

/-- Record of a wavelength's retirement: event 1 substituted, 2 narrowed, 3 recovered at the same width (R436). -/
def wlRecord (b : Blk) (d : Dev) (n w event kind : Nat) : Blk :=
  b.errRecord d { cls := 1, source := 0x01, event := event, action := 2, inst := 16 * n + w, part := 0, detail := kind }

/-- A wavelength marked retired; it keeps no level (R419). -/
def markRetired (b : Blk) (d : Dev) (n w : Nat) : Blk :=
  ((b.setWl d n w 3 0).setBucketLevel d (.wlUcw n w) 0).setBucketLevel d (.wlSer n w) 0

/-- Retirements that a substitution has not finished, or that wait for it, when the link leaves UP: the wavelengths are excluded when
widths are chosen again (R433). -/
def retirePending (b : Blk) (d : Dev) (n : Nat) : Blk :=
  let p := b.port d n
  let l := (match p.subst with | some x => [x.wl + 16 * x.cause] | none => []) ++ p.substQ
  b.forEach l (fun b e => if b.wlRole d n (e % 16) = 3 then b else (b.markRetired d n (e % 16)).wlRecord d n (e % 16) 3 (e / 16))

/-! ## Flushing (R49, R288) -/

/-- A port stops: its replay buffer is discarded, everything queued for it is flushed and counted, also in the DROPS of its partitions
(R304), and a frame still in assembly is found bad with reason 0x1 (R49, R269). -/
def flushPort (b : Blk) (d : Dev) (n : Nat) : Blk :=
  let p := b.port d n
  let begun := p.tx.filter (fun t => decide (0 < t.sent))
  let held := heldPackets p.replay
  let lost := held.length + (p.tx.filter (fun t => t.sent == 0)).length + (if p.replay.isEmpty then begun.length else 0)
  let b := b.setPort d n { p with replay := [], tx := [], owedAck := false, owedNak := false, subst := none, substPeer := none, substQ := [] }
  let b := b.count d (offPort d n 0x18) 47 16 lost
  let b := b.when_ (!p.asm.isEmpty && p.cut.isNone) (fun b => match d with
    | .sw => b.count .sw (offPort .sw n 0x898) 63 32 1
    | .ep => b.count .ep (offPort .ep n 0x18) 15 0 1)
  let b := b.dropAssembly d n 1
  match d with
  | .ep => b
  | .sw =>
    let b := b.forEach held (fun b x => b.partCount x.1 x.2 4 1)
    let b := b.forEach p.tx (fun b t =>
      let b := b.when_ (t.sent == 0 || p.replay.isEmpty) (fun b => b.countDrop t.pkt)
      match t.copy with
      | some id => b.unref id
      | none => b)
    let qs := b.sw.voqs.filter (fun q => q.key.eq == n)
    b.forEach qs (fun b q => b.forEach q.ents (fun b id => match b.findCopy id with
      | some c => (b.dropQueued q.key c).count .sw (offPort .sw n 0x18) 47 16 1
      | none => b))

/-- A port leaves UP: it is not live, its width reads 0, its queues are flushed; a switch port announces PORT_DOWN (R288, R376). -/
def linkDown (b : Blk) (d : Dev) (n cause : Nat) : Blk :=
  let wasUp := b.lstate d n == 2
  let b := b.setFld d (offPort d n 0) 59 56 cause
  let b := b.setFld d (offPort d n 0) 55 52 0
  let b := b.setFlag d (offPort d n 0) 48 false
  let b := (b.retirePending d n).flushPort d n
  b.when_ wasUp (fun b => b.portEvent d n false)

/-! ## Bring-up (R410) -/

/-- The laser-supply input that lights a port: the position serving its tile, or the end point's one input (R407). -/
def lsupOf (b : Blk) (d : Dev) (n : Nat) : Nat :=
  match d with
  | .sw => b.fld .sw (offTileStatus (n / 4)) 63 59
  | .ep => 0

/-- Whether an input has light: a fibre is in use, and not both are below the loss level (R408, R409). -/
def inputLit (b : Blk) (d : Dev) (k : Nat) : Bool := b.fld d (offLsup d k) 63 62 != 0 && b.fld d (offLsup d k) 61 60 != 0

/-- Whether a port has light from its laser-supply input. -/
def lit (b : Blk) (d : Dev) (n : Nat) : Bool := b.inputLit d (b.lsupOf d n)

def enabled (b : Blk) (d : Dev) (n : Nat) : Bool := b.flag d (offPort d n 8) 8

/-- Step 2 of bring-up from now on: nothing of the partner known yet. -/
def beginAttempt (b : Blk) (d : Dev) (n : Nat) : Blk :=
  let b := b.settleMarkers d n
  let t := b.now d
  b.modPort d n (fun p => { p with
    attemptAt := t, waiting := false, planeBad := false, gotNode := false, gotPort := false, gotMap := false, qualified := 0,
    partnerMap := 0, txStripes := [], badMk := [], acted := none })

/-- A port that is enabled, lit and not retired starts bring-up. -/
def startTraining (b : Blk) (d : Dev) (n : Nat) : Blk :=
  if b.enabled d n && b.lit d n then (b.setFld d (offPort d n 0) 63 60 1).beginAttempt d n
  else if b.enabled d n then b.setFld d (offPort d n 0) 63 60 1 else b.setFld d (offPort d n 0) 63 60 0

/-! ## Retirement of a port (R422) -/

/-- Record of a port's retirement or return (R436). -/
def portRecord (b : Blk) (d : Dev) (n event action detail : Nat) : Blk :=
  b.errRecord d { cls := 1, source := 0x02, event := event, action := action, inst := n, part := 0, detail := detail }

/-- A port retired: cause 6 BUCKET, 7 HOST, 8 FEW_LANES. A switch runs the loopback test after a bucket's retirement and writes the
record with its result (R423). -/
def retirePort (b : Blk) (d : Dev) (n cause : Nat) : Blk :=
  let b := b.linkDown d n cause
  let b := b.setFld d (offPort d n 0) 63 60 4
  let b := b.setBucketLevel d (.portRcv n) 0
  let b := b.setFlag d (offPort d n 0) 26 false
  match d, cause with
  | .sw, 6 => let t := b.now .sw; b.modPort .sw n (fun p => { p with loopAt := some t })
  | _, 6 => b.portRecord d n 1 2 0
  | _, 7 => b.portRecord d n 2 2 0
  | _, _ => b.portRecord d n 3 2 0

/-! ## Buckets (R418, R419) -/

/-- THRESHOLD of a kind. -/
def threshold (b : Blk) (d : Dev) (k : Nat) : Nat := b.fld d (offBkt d k) 47 32

def drainMs (b : Blk) (d : Dev) (k : Nat) : Nat := b.fld d (offBkt d k) 31 0

/-- One link recovery added to a port's PORT_RCV bucket; the bucket fires by retiring the port. -/
def portRcvAdd (b : Blk) (d : Dev) (n : Nat) : Blk :=
  let l := b.bucketLevel d (.portRcv n) + 1
  if b.threshold d 2 ≤ l then b.retirePort d n 6 else b.setBucketLevel d (.portRcv n) l

/-! ## Recovery (R413) -/

/-- Link recovery with a cause; `bucket` says whether it counts in PORT_RCV. -/
def recover (b : Blk) (d : Dev) (n cause : Nat) (bucket : Bool) : Blk :=
  let b := b.linkDown d n cause
  let b := b.setFld d (offPort d n 0) 63 60 3
  let b := b.beginAttempt d n
  let b := b.count d (offPort d n 0x18) 63 48 1
  b.when_ bucket (fun b => b.portRcvAdd d n)

/-! ## Wavelength retirement (R420, R421) -/

/-- A substitution begun: SUBST names the wavelength and the partner's marker four ahead of the one its direction has reached. -/
def startSubst (b : Blk) (d : Dev) (n w cause : Nat) : Blk :=
  let am := (b.rxMarker d n + 4) % 65536
  let t := b.now d
  let b := b.modPort d n (fun p => { p with subst := some { wl := w, amSeq := am, at_ := t, acked := false, cause := cause } })
  b.sendMarker d n 0x04 (w * 4096 + am % 4096)

/-- A wavelength retired through recovery or, with fewer than four usable ones left, with its port. -/
def retireByRecovery (b : Blk) (d : Dev) (n w kind : Nat) : Blk :=
  let width := b.fld d (offPort d n 0) 55 52
  let left := (b.wlWith d n [1, 2]).length - (if (b.wlWith d n [1, 2]).contains w then 1 else 0)
  let b := b.markRetired d n w
  if left < 4 then (b.wlRecord d n w 2 kind).retirePort d n 8
  else
    let b := b.wlRecord d n w (if width = 8 ∧ left < 8 then 2 else 3) kind
    b.recover d n (if kind = 0xFF then 5 else 6) true

/-- A wavelength whose bucket fired (kind 0 WL_UCW, 1 WL_SER), or that lost light or lock (0xFF): what R420 lists. A retirement that
waits for a substitution keeps its wavelength and 16 times its kind. -/
def retireWl (b : Blk) (d : Dev) (n w kind : Nat) : Blk :=
  let width := b.fld d (offPort d n 0) 55 52
  if b.wlRole d n w = 3 ∨ (kind ≠ 0xFF ∧ (b.port d n).subst.any (fun x => x.wl == w) = true) then b
  else if b.lstate d n ≠ 2 then
    -- during recovery the wavelength is excluded when widths are chosen (R433)
    (b.markRetired d n w).wlRecord d n w 3 kind
  else if kind ≠ 0xFF ∧ (b.port d n).subst.isSome = true then b.modPort d n (fun p => { p with substQ := addNew p.substQ (w + 16 * kind) })
  else if kind ≠ 0xFF ∧ width = 8 ∧ b.wlRole d n 8 = 2 ∧ w < 8 then b.startSubst d n w kind
  else b.retireByRecovery d n w kind

/-- An event of a wavelength's bucket, kind 0 WL_UCW or 1 WL_SER; counted while the wavelength is in service. -/
def wlBucket (b : Blk) (d : Dev) (n w kind : Nat) : Blk :=
  if b.wlRole d n w = 1 ∨ b.wlRole d n w = 2 then
    let k : BucketId := if kind = 0 then .wlUcw n w else .wlSer n w
    let l := b.bucketLevel d k + 1
    if b.threshold d kind ≤ l then (b.setBucketLevel d k 0).retireWl d n w kind else b.setBucketLevel d k l
  else b

/-- This part's transmitter moves the stripe of the wavelength the partner named to wavelength 8. -/
def moveStripe (b : Blk) (d : Dev) (n w : Nat) : Blk :=
  b.modPort d n (fun p => { p with substPeer := none, txStripes := p.txStripes.map (fun x => if x == w then 8 else x) })

/-- This part's receiver takes the stripe of its own substitution from wavelength 8; a retirement that waited follows. -/
def takeStripe (b : Blk) (d : Dev) (n : Nat) (s : SubstOut) : Blk :=
  let q := (b.port d n).substQ
  let stripe := b.fld d (wlOff d n s.wl) 58 56
  let b := (b.markRetired d n s.wl).setWl d n 8 1 stripe
  let b := b.wlRecord d n s.wl 1 s.cause
  let b := b.modPort d n (fun p => { p with subst := none, substQ := p.substQ.drop 1 })
  match q with
  | e :: _ => b.retireWl d n (e % 16) (e / 16)
  | [] => b

/-- A substitution's change at its marker (R421): the transmitter moves when its own markers have reached the one the partner named, the
receiver when the partner's markers have reached the one it named itself and the partner has answered. -/
def switchover (b : Blk) (d : Dev) (n : Nat) : Blk :=
  let tx := b.txMarker d n
  let rx := b.rxMarker d n
  let b := match (b.port d n).substPeer with
    | some (w, am) => if (tx % 4096 + 4096 - am) % 4096 < 2048 then b.moveStripe d n w else b
    | none => b
  match (b.port d n).subst with
  | some s => if s.acked && decide ((rx + 65536 - s.amSeq) % 65536 < 32768) then b.takeStripe d n s else b
  | none => b

/-! ## Parameters and width (R411) -/

/-- Stripes of a direction for its usable wavelengths at width 8: stripe w on wavelength w, a missing one's on wavelength 8. -/
def stripes8 (usable : List Nat) : List Nat := (upto 8).map (fun w => if usable.contains w then w else 8)

/-- Width and stripes chosen once the partner's parameters and map are there: 8, 4, or retirement with FEW_LANES. Retired
wavelengths are never usable. -/
def chooseWidth (b : Blk) (d : Dev) (n : Nat) : Blk :=
  let p := b.port d n
  if !(p.gotNode && p.gotPort && p.gotMap) then b
  else
    let rx := (upto 9).filter (fun w => bitOf p.qualified w && b.wlRole d n w != 3)
    let tx := (upto 9).filter (fun w => bitOf p.partnerMap w)
    let place := fun (b : Blk) (used : List Nat) => b.forBelow 9 (fun b w =>
      if b.wlRole d n w = 3 then b
      else match used.idxOf? w with
        | some st => b.setWl d n w 1 st
        | none => b.setWl d n w (if rx.contains w then 2 else 0) 0)
    if 8 ≤ rx.length ∧ 8 ≤ tx.length then
      (place b (stripes8 rx)).modPort d n (fun p => { p with txStripes := stripes8 tx })
    else if 4 ≤ rx.length ∧ 4 ≤ tx.length then
      (place b (rx.take 4)).modPort d n (fun p => { p with txStripes := tx.take 4 })
    else b.retirePort d n 8

/-- A port that is training or recovering and not waiting. -/
def training (b : Blk) (d : Dev) (n : Nat) : Bool := (b.lstate d n == 1 || b.lstate d n == 3) && !(b.port d n).waiting

/-- Own plane of a port: the index of an end point's port, the switch's plane (R411). -/
def ownPlane (b : Blk) (d : Dev) (n : Nat) : Nat :=
  match d with
  | .sw => b.swPlane
  | .ep => n

/-- LM_ARG of the part's own PARAM_NODE and PARAM_PORT (R406). -/
def ownNodeArg (b : Blk) (d : Dev) (n : Nat) : Nat :=
  let node := match d with
    | .sw => b.swNode.getD 16383
    | .ep => b.ep.node
  b.ownPlane d n * 2 ^ 14 + node % 2 ^ 14

def ownPortArg (d : Dev) (n : Nat) : Nat := (match d with | .sw => 2 ^ 15 | .ep => 0) + n * 2 ^ 8

/-- The part's own parameters sent (R406, R410 step 6), with the first parameter of the partner (log 136). -/
def sendParams (b : Blk) (d : Dev) (n : Nat) : Blk :=
  let p := b.port d n
  if p.gotNode || p.gotPort || p.planeBad then b
  else (b.sendMarker d n 0x01 (b.ownNodeArg d n)).sendMarker d n 0x02 (ownPortArg d n)

/-- The part's own RX_MAP: the wavelengths it has qualified and has not retired (R406, R411). -/
def sendMap (b : Blk) (d : Dev) (n qualified : Nat) : Blk :=
  b.sendMarker d n 0x03 (((upto 9).filter (fun w => bitOf qualified w && b.wlRole d n w != 3)).foldl (fun a w => a + 2 ^ w) 0)

def takeNode (b : Blk) (d : Dev) (n arg : Nat) : Blk :=
  if !b.training d n then b
  else
    let b := b.sendParams d n
    let plane := bits arg 15 14
    let b := b.setFld d (offPort d n 0) 51 50 plane
    let b := b.setFld d (offPort d n 0) 47 34 (bits arg 13 0)
    if plane = b.ownPlane d n then (b.modPort d n (fun p => { p with gotNode := true })).chooseWidth d n
    else (b.setFld d (offPort d n 0) 59 56 3).modPort d n (fun p => { p with planeBad := true })

def takePort (b : Blk) (d : Dev) (n arg : Nat) : Blk :=
  if !b.training d n then b
  else
    let b := b.sendParams d n
    let b := b.setFld d (offPort d n 0) 49 49 (bits arg 15 15)
    let b := b.setFld d (offPort d n 0) 33 27 (bits arg 14 8)
    (b.modPort d n (fun p => { p with gotPort := true })).chooseWidth d n

def takeMap (b : Blk) (d : Dev) (n arg qualified : Nat) : Blk :=
  if !b.training d n then b
  else ((b.sendMap d n qualified).modPort d n (fun p => { p with gotMap := true, partnerMap := bits arg 8 0, qualified := qualified })).chooseWidth d n

/-- AM_CRC of a marker's bits [119:16] (R405): polynomial 0x8BB7, initial value 0, nothing reflected or inverted. -/
def markerCrc (head : Nat) : Nat := (beBytes 13 head).foldl (fun c x => (byteBits x).foldl (crcBit 16 0x8BB7) c) 0

/-- An alignment marker of 120 bits (R405): what one wavelength carries; `stripe` is 0xF on a wavelength without one. -/
def markerWord (lane stripe op arg seq : Nat) : Nat :=
  let head := packBits [(56, 0xA5A5A5A5A5A5A5 ^^^ (0x01010101010101 * lane)), (4, lane), (4, stripe), (8, op), (16, arg), (16, seq)]
  head * 2 ^ 16 + markerCrc head

/-- Whether a received marker is sound: its SYNC fits its LANE and its AM_CRC is good; any other is ignored (R405). -/
def markerOk (x : Nat) : Bool :=
  decide (bits x 63 60 < 9) && bits x 119 64 == 0xA5A5A5A5A5A5A5 ^^^ (0x01010101010101 * bits x 63 60) &&
    bits x 15 0 == markerCrc (x / 2 ^ 16)

/-- The markers of one AM_SEQ on the nine wavelengths a port sends: the same LM_OP and LM_ARG on each (R406), the stripe of the transmit
map where the wavelength carries one. -/
def markersSent (b : Blk) (d : Dev) (n op arg seq : Nat) : List Nat :=
  (upto 9).map (fun w => markerWord w (((b.port d n).txStripes.idxOf? w).getD 0xF) op arg seq)

/-- A marker that fails its SYNC or AM_CRC is ignored; four in a row on a wavelength cost its codeword lock, and the link when it carries a
stripe (R405, R413). -/
def badMarker (b : Blk) (d : Dev) (n w : Nat) : Blk :=
  let k := (b.port d n).badMk.get w 0 + 1
  let b := b.modPort d n (fun p => { p with badMk := p.badMk.set w (if k < 4 then k else 0) 0 })
  if 4 ≤ k ∧ b.portUp d n = true ∧ b.wlRole d n w = 1 then b.recover d n 5 true else b

/-- A marker as a wavelength receives it (R405, R406): a good one is noted, and an operation is acted on at its first good copy. -/
def takeMarker (b : Blk) (d : Dev) (n w op mk : Nat) (act : Blk → Nat → Blk) : Blk :=
  if !markerOk mk then b.badMarker d n w
  else
    let am := bits mk 31 16
    let seen := (b.port d n).acted == some am
    let t := b.now d
    let b := b.modPort d n (fun p => { p with badMk := p.badMk.set w 0 0, amSeq := am, amAt := t })
    if seen || bits mk 55 48 != op then b else act (b.modPort d n (fun p => { p with acted := some am })) (bits mk 47 32)

/-- Slots a port grants for a class: the lath image's SLOTS, or the end point's own buffer (R51). -/
def carveSlots (b : Blk) (d : Dev) (n tc : Nat) : Nat :=
  match d with
  | .sw => b.fld .sw (offPort .sw n (0x800 + 8 * tc)) 23 0
  | .ep => Config.epCarve tc

/-- The link is up (R410 step 7, R412): sequence numbers begin again, credits are the carve less what is held, the port is live. -/
def bringUp (b : Blk) (d : Dev) (n : Nat) : Blk :=
  let p := b.port d n
  if !b.training d n || p.txStripes.isEmpty || !b.lit d n then b
  else
    let b := b.settleMarkers d n
    let p := b.port d n
    let owed := (upto 7).foldl (fun t tc => Tbl.set t tc (b.carveSlots d n tc - p.rxHeld.get tc 0) 0) ([] : Tbl Nat)
    let t := b.now d
    let b := b.setPort d n { p with
      rxLast := 0, txNext := 1, replay := [], timerAt := t, owedAck := false, owedNak := false, partnerAck := 0, credits := [],
      owedCr := owed, asm := [], cut := none }
    let b := b.setFld d (offPort d n 0) 63 60 2
    let b := b.setFld d (offPort d n 0) 55 52 (if p.txStripes.length = 8 then 8 else 4)
    let b := b.setFlag d (offPort d n 0) 48 true
    let b := b.wrapCount d (offPort d n 0) 15 0 1
    b.portEvent d n true

/-- 20 ms without UP (R410): DOWN_CAUSE and the 100 ms wait. A plane that differs keeps cause PLANE (R411). -/
def trainTimeout (b : Blk) (d : Dev) (n : Nat) : Blk :=
  let p := b.port d n
  if b.training d n && decide (p.attemptAt + 20000000 ≤ b.now d) then
    let cause := if !b.lit d n then 1 else if p.planeBad then 3 else if p.light = 0 then 1 else 2
    let t := b.now d
    ((b.setFld d (offPort d n 0) 59 56 cause).setFld d (offPort d n 0) 63 60 1).modPort d n (fun p => { p with waiting := true, attemptAt := t })
  else b

def waitEnd (b : Blk) (d : Dev) (n : Nat) : Blk :=
  let p := b.port d n
  if p.waiting && decide (p.attemptAt + 100000000 ≤ b.now d) then b.beginAttempt d n else b

/-- Received power of a wavelength as measured: the value is outside the spec and free (R417, log 17). -/
def measurePower (b : Blk) (d : Dev) (n w : Nat) : Blk :=
  let (k, b) := b.fresh
  b.setFld d (wlOff d n w) 31 24 (Config.freeByte k).toNat

/-- A wavelength that receives no light any more: its power is below the range (R417). -/
def lightOff (b : Blk) (d : Dev) (n w : Nat) : Blk :=
  (b.modPort d n (fun p => { p with light := if bitOf p.light w then p.light - 2 ^ w else p.light })).setFld d (wlOff d n w) 31 24 0x80

/-- Light on a wavelength that had none ends an attempt or a wait (R410). -/
def lightOn (b : Blk) (d : Dev) (n w : Nat) : Blk :=
  let p := b.port d n
  let had := bitOf p.light w
  let b := b.measurePower d n w
  let b := b.modPort d n (fun p => { p with light := if bitOf p.light w then p.light else p.light + 2 ^ w })
  if !had && (b.lstate d n == 1 || b.lstate d n == 3) then b.beginAttempt d n else b

/-! ## Commands of CTL (R415) -/

def refuseCmd (b : Blk) (d : Dev) (n : Nat) : Blk := b.setFlag d (offPort d n 8) 4 true

def cmdRetrain (b : Blk) (d : Dev) (n : Nat) : Blk :=
  let st := b.lstate d n
  if st = 0 ∨ st = 4 ∨ st = 5 then b.refuseCmd d n else b.recover d n 7 true

def cmdRetire (b : Blk) (d : Dev) (n : Nat) : Blk :=
  let st := b.lstate d n
  if st = 4 ∨ st = 5 then b.refuseCmd d n else b.retirePort d n 7

/-- A bucket's next drain set a whole period ahead: its resource enters service (R418). -/
def restartDrain (b : Blk) (d : Dev) (k : BucketId) (kind : Nat) : Blk :=
  let next := b.now d + 1000000 * b.drainMs d kind
  match d with
  | .sw => b.modSw (fun s => { s with drain := (k, next) :: s.drain.filter (fun e => !(e.1 = k)) })
  | .ep => b.modEp (fun s => { s with drain := (k, next) :: s.drain.filter (fun e => !(e.1 = k)) })

/-- A wavelength enters service: its buckets are empty, and their drain periods begin (R418, R419). -/
def freshWl (b : Blk) (d : Dev) (n w : Nat) : Blk :=
  (((b.setBucketLevel d (.wlUcw n w) 0).setBucketLevel d (.wlSer n w) 0).restartDrain d (.wlUcw n w) 0).restartDrain d (.wlSer n w) 1

/-- Retirements of a port's wavelengths cleared. -/
def clearWl (b : Blk) (d : Dev) (n : Nat) : Blk :=
  b.forBelow 9 (fun b w => if b.wlRole d n w = 3 then (b.setWl d n w 0 0).freshWl d n w else b)

/-- A retirement by its bucket whose loopback test is cut short still has its record, without the test's result (R422, log 137). -/
def closeLoop (b : Blk) (n : Nat) : Blk :=
  if (b.port .sw n).loopAt.isNone then b
  else (b.modPort .sw n (fun p => { p with loopAt := none })).portRecord .sw n 1 2 0

def cmdUnretire (b : Blk) (d : Dev) (n : Nat) : Blk :=
  let st := b.lstate d n
  if st = 5 then b.refuseCmd d n
  else
    let b := b.clearWl d n
    if st = 4 then
      let b := match d with
        | .sw => b.closeLoop n
        | .ep => b
      let b := b.setFlag d (offPort d n 0) 26 false
      let b := b.restartDrain d (.portRcv n) 2
      (b.startTraining d n).portRecord d n 4 2 0
    else if st = 0 then b
    else b.recover d n 7 false

/-- ENABLE written (R415). -/
def enablePort (b : Blk) (d : Dev) (n : Nat) (on : Bool) : Blk :=
  let b := b.setFlag d (offPort d n 8) 8 on
  let st := b.lstate d n
  if on then (if st = 0 then b.startTraining d n else b)
  else if st = 0 ∨ st = 4 ∨ st = 5 then b
  else (b.linkDown d n 7).setFld d (offPort d n 0) 63 60 0

/-! ## Laser inputs (R407-R409, R537) -/

/-- Ports that a laser input lights. -/
def portsOf (b : Blk) (d : Dev) (k : Nat) : List Nat := (upto (nPorts d)).filter (fun n => b.lsupOf d n == k)

def laserRecord (b : Blk) (d : Dev) (k event : Nat) : Blk :=
  let r := b.reg d (offLsup d k)
  b.errRecord d { cls := 1, source := 0x03, event := event, action := 4, inst := k, part := 0,
                  detail := getF r 47 40 + getF r 39 32 * 256 }

/-- The part switches an input to its redundant fibre. -/
def failover (b : Blk) (d : Dev) (k pwr : Nat) : Blk :=
  let o := offLsup d k
  let b := (b.setFlag d o 61 false).setFld d o 47 40 pwr
  if b.fld d o 63 62 = 1 ∧ b.flag d o 60 = true then
    ((b.setFld d o 63 62 2).count d o 31 16 1).laserRecord d k 1
  else b

/-- Below the loss level of +3.0 dBm (R537), powers in 0.1 dBm, 0x80 for below the range. -/
def belowLoss (pwr : Nat) : Bool := decide (toSigned 8 pwr < 30)

/-- The ports an input serves go dark and down with NO_LIGHT (R408). -/
def goDark (b : Blk) (d : Dev) (k : Nat) : Blk :=
  let ports := b.portsOf d k
  let b := b.setFld d (offLsup d k) 63 62 0
  let t := b.now d
  let b := b.modCore d (fun c => { c with dark := c.dark.insert k t })
  let b := b.laserRecord d k 2
  b.forEach ports (fun b n =>
    if b.lstate d n = 2 then b.recover d n 1 false
    else if b.lstate d n = 1 ∨ b.lstate d n = 3 then b.setFld d (offPort d n 0) 59 56 1 else b)

/-- Light lost at an input, with the powers its fibres have left: a fibre below the loss level is not OK any more. With one left the part
goes on with it, under R407 when it was the primary that fell; with both lost the ports go dark. -/
def inputLost (b : Blk) (d : Dev) (k pri red : Nat) : Blk :=
  let o := offLsup d k
  let b := b.setFld d o 39 32 red
  let b := b.when_ (belowLoss red) (fun b => b.setFlag d o 60 false)
  if belowLoss pri && belowLoss red then ((b.setFlag d o 61 false).setFld d o 47 40 pri).goDark d k
  else if belowLoss pri then b.failover d k pri
  else b.setFld d o 47 40 pri

/-- Light back on a fibre for 10 ms: its OK bit. An input that had no fibre in use takes it, and one whose primary is below the loss level
switches to its redundant fibre (R407); the ports of an input that had no light are brought up. -/
def lightBack (b : Blk) (d : Dev) (k : Nat) (redundant : Bool) (pwr : Nat) : Blk :=
  let o := offLsup d k
  let was := b.inputLit d k
  let b := if redundant then (b.setFlag d o 60 true).setFld d o 39 32 pwr else (b.setFlag d o 61 true).setFld d o 47 40 pwr
  let b := if b.fld d o 63 62 = 0 then b.setFld d o 63 62 (if redundant then 2 else 1)
    else if b.fld d o 63 62 = 1 ∧ b.flag d o 61 = false then ((b.setFld d o 63 62 2).count d o 31 16 1).laserRecord d k 1 else b
  if was then b
  else
    let b := b.modCore d (fun c => { c with dark := c.dark.erase k })
    b.forEach (b.portsOf d k) (fun b n => if b.lstate d n = 1 ∨ b.lstate d n = 3 then b.beginAttempt d n else b)

def usePri (b : Blk) (d : Dev) (k : Nat) : Blk :=
  if b.flag d (offLsup d k) 61 then b.setFld d (offLsup d k) 63 62 1 else b

/-! ## Drains (R418) -/

/-- Kind of a bucket (R419). -/
def bucketKind : BucketId → Nat
  | .wlUcw _ _ => 0
  | .wlSer _ _ => 1
  | .portRcv _ => 2
  | .tile _ => 3
  | .engine _ => 4
  | .hbmPc _ => 5

/-- End of the drain period in progress of a bucket; periods run from reset unless its resource entered service later. -/
def drainEnd (b : Blk) (d : Dev) (k : BucketId) : Nat :=
  let l := match d with
    | .sw => b.sw.drain
    | .ep => b.ep.drain
  match l.find? (fun e => e.1 = k) with
  | some e => e.2
  | none => 1000000 * getF (regReset d (offBkt d (bucketKind k))) 31 0

/-- The end of a drain period: the level falls by 1 unless it is 0, and the next period begins, with DRAIN_MS as it stands. -/
def drainBucket (b : Blk) (d : Dev) (k : BucketId) : Blk :=
  let t := b.drainEnd d k
  if b.now d < t then b
  else
    let b := b.setBucketLevel d k (b.bucketLevel d k - 1)
    let next := t + 1000000 * b.drainMs d (bucketKind k)
    match d with
    | .sw => b.modSw (fun s => { s with drain := (k, next) :: s.drain.filter (fun e => !(e.1 = k)) })
    | .ep => b.modEp (fun s => { s with drain := (k, next) :: s.drain.filter (fun e => !(e.1 = k)) })

end Blk

/-! ## Meanings -/

/-- Fault handling goes on only while the part's clocks run (R433). -/
def portCmd (d : Dev) (port : Nat) (s : State) (f : Blk → Blk) : Res :=
  s.onIf (hasPort d port) (fun b => if b.inRun d then f b else b)

/-- REPLAY_BUDGET_EXPIRY (R49, R413). -/
def execReplayBudgetExpiry (d : Dev) (port : Nat) (s : State) : Res := portCmd d port s (fun b =>
  match (b.port d port).replay with
  | h :: _ => if b.portUp d port && decide (h.at_ + 10000 ≤ b.now d) then b.recover d port 4 true else b
  | [] => b)

/-- UNCORRECTABLE_CODEWORD (R404, R419). -/
def execUncorrectableCodeword (d : Dev) (port wl : Nat) (s : State) : Res :=
  s.onIf (hasPort d port && hasWl wl) (fun b =>
    if b.inRun d then (b.count d (Blk.wlOff d port wl + 8) 31 0 1).wlBucket d port wl 0 else b)

/-- SER_WINDOW_END (R417, R419). -/
def execSerWindowEnd (d : Dev) (port wl corrected received : Nat) (s : State) : Res :=
  s.onIf (hasPort d port && hasWl wl) (fun b =>
    if b.inRun d then
      let b := (b.count d (Blk.wlOff d port wl + 8) 63 32 corrected).measurePower d port wl
      if received < corrected * 8192 then b.wlBucket d port wl 1 else b
    else b)

/-- BUCKET_DRAIN (R418). -/
def execBucketDrain (d : Dev) (k : BucketId) (s : State) : Res := s.onIf (hasBucket d k) (fun b => if b.inRun d then b.drainBucket d k else b)

/-- WAVELENGTH_LOSS (R420): of a wavelength that carries a stripe. -/
def execWavelengthLoss (d : Dev) (port wl : Nat) (s : State) : Res :=
  s.onIf (hasPort d port && hasWl wl) (fun b =>
    if b.inRun d && b.wlRole d port wl == 1 then (b.lightOff d port wl).retireWl d port wl 0xFF else b)

/-- LOCK_LOST (R413). -/
def execLockLost (d : Dev) (port : Nat) (s : State) : Res :=
  portCmd d port s (fun b => if b.portUp d port then b.recover d port 5 true else b)

/-- LIGHT_LOST (R413): NO_LIGHT retires nothing and counts in no bucket. -/
def execLightLost (d : Dev) (port : Nat) (s : State) : Res :=
  portCmd d port s (fun b =>
    let b := b.forBelow 9 (fun b w => b.lightOff d port w)
    if b.portUp d port then b.recover d port 1 false else b)

/-- A marker of an operation on a wavelength. -/
def markerCmd (d : Dev) (port wl op mk : Nat) (s : State) (act : Blk → Nat → Blk) : Res :=
  s.onIf (hasPort d port && hasWl wl) (fun b => if b.inRun d then b.takeMarker d port wl op mk act else b)

/-- SUBST (R421): answered, and the transmitter prepares to move the stripe at the marker it names. -/
def execSubst (d : Dev) (port wl marker : Nat) (s : State) : Res := markerCmd d port wl 0x04 marker s (fun b arg =>
  if b.portUp d port then
    (b.modPort d port (fun p => { p with substPeer := some (bits arg 15 12, bits arg 11 0) })).sendMarker d port 0x05 arg else b)

/-- SUBST_ACK (R421). -/
def execSubstAck (d : Dev) (port wl marker : Nat) (s : State) : Res := markerCmd d port wl 0x05 marker s (fun b arg =>
  b.modPort d port (fun p => { p with
    subst := p.subst.map (fun x => if x.wl == bits arg 15 12 && x.amSeq % 4096 == bits arg 11 0 then { x with acked := true } else x) }))

/-- SUBST_SWITCHOVER (R421). -/
def execSubstSwitchover (d : Dev) (port : Nat) (s : State) : Res :=
  portCmd d port s (fun b => if b.portUp d port then b.switchover d port else b)

/-- SUBST_TIMEOUT (R421): no SUBST_ACK within 1 ms. -/
def execSubstTimeout (d : Dev) (port : Nat) (s : State) : Res :=
  portCmd d port s (fun b =>
    match (b.port d port).subst with
    | some x => if !x.acked && decide (x.at_ + 1000000 ≤ b.now d) then b.retireByRecovery d port x.wl x.cause else b
    | none => b)

/-- PARAM_NODE (R406, R411). -/
def execParamNode (d : Dev) (port wl marker : Nat) (s : State) : Res := markerCmd d port wl 0x01 marker s (fun b arg => b.takeNode d port arg)

/-- PARAM_PORT (R406). -/
def execParamPort (d : Dev) (port wl marker : Nat) (s : State) : Res := markerCmd d port wl 0x02 marker s (fun b arg => b.takePort d port arg)

/-- RX_MAP (R406, R411): the part has qualified the wavelengths of `qualified` itself. -/
def execRxMap (d : Dev) (port wl marker qualified : Nat) (s : State) : Res :=
  markerCmd d port wl 0x03 marker s (fun b arg => b.takeMap d port arg qualified)

/-- LINK_UP (R410, R412). -/
def execLinkUp (d : Dev) (port : Nat) (s : State) : Res := portCmd d port s (fun b => b.bringUp d port)

/-- TRAINING_TIMEOUT (R410). -/
def execTrainingTimeout (d : Dev) (port : Nat) (s : State) : Res := portCmd d port s (fun b => b.trainTimeout d port)

/-- TRAINING_WAIT_END (R410). -/
def execTrainingWaitEnd (d : Dev) (port : Nat) (s : State) : Res := portCmd d port s (fun b => b.waitEnd d port)

/-- LIGHT_DETECTED (R410). -/
def execLightDetected (d : Dev) (port wl : Nat) (s : State) : Res :=
  s.onIf (hasPort d port && hasWl wl) (fun b => if b.inRun d then b.lightOn d port wl else b)

/-- RETRAIN (R415). -/
def execRetrain (d : Dev) (port : Nat) (s : State) : Res := s.onIf (hasPort d port) (fun b => b.hostWrite d (fun b => b.cmdRetrain d port))

/-- PORT_RETIRE (R415, R422). -/
def execPortRetire (d : Dev) (port : Nat) (s : State) : Res := s.onIf (hasPort d port) (fun b => b.hostWrite d (fun b => b.cmdRetire d port))

/-- UNRETIRE (R415). -/
def execUnretire (d : Dev) (port : Nat) (s : State) : Res := s.onIf (hasPort d port) (fun b => b.hostWrite d (fun b => b.cmdUnretire d port))

/-- PORT_ENABLE (R415). -/
def execPortEnable (d : Dev) (port : Nat) (on : Bool) (s : State) : Res :=
  s.onIf (hasPort d port) (fun b => b.hostWrite d (fun b => b.enablePort d port on))

/-- LASER_FAILOVER (R407). -/
def execLaserFailover (d : Dev) (k pwr : Nat) (s : State) : Res := s.onIf (hasLsup d k) (fun b => if b.inRun d then b.failover d k pwr else b)

/-- LASER_INPUT_LOST (R408). -/
def execLaserInputLost (d : Dev) (k priPwr redPwr : Nat) (s : State) : Res :=
  s.onIf (hasLsup d k) (fun b => if b.inRun d then b.inputLost d k priPwr redPwr else b)

/-- LASER_LIGHT_RETURN (R408, R537). -/
def execLaserLightReturn (d : Dev) (k : Nat) (redundant : Bool) (pwr : Nat) (s : State) : Res :=
  s.onIf (hasLsup d k) (fun b => if b.inRun d then b.lightBack d k redundant pwr else b)

/-- USE_PRIMARY (R407, R409). -/
def execUsePrimary (d : Dev) (k : Nat) (s : State) : Res := s.onIf (hasLsup d k) (fun b => b.hostWrite d (fun b => b.usePri d k))

end Sys2Proof.Machine
end

