-- ==== Sys2Proof/Machine/Keys.lean ====
section
/-! DEFINITION. Key entries of the partitions on both parts: slots, generation, what a request's KEY_GEN is checked against (R85-R88,
R323, R327, R328, R397). The switch numbers its entries by local partition index, the end point by PART_ID. -/

namespace Sys2Proof.Machine

open Sys2Proof

/-- An entry that holds nothing. -/
def KeyEnt.empty : KeyEnt :=
  { used := false, g := 0, cur := none, other := .empty, otherKey := none, agent := none, flipAt := none, holdoff := none,
    lastOld := 0, lastCur := 0 }

/-- Code of the other slot's state (R328). -/
def OtherSlot.code : OtherSlot → Nat
  | .empty => 0
  | .new => 1
  | .previous => 2
  | .retiring => 3

/-- The layout of SW_FMEM_PART_i_KEY (R328). -/
def KeyEnt.word (e : KeyEnt) : Nat := e.g % 2 + 4 * b2n e.cur.isSome + 8 * e.other.code + 64 * b2n e.holdoff.isSome

namespace Blk

/-- The number of a partition's key entry. -/
def keyNo (b : Blk) (d : Dev) (pid : Nat) : Option Nat :=
  match d with
  | .sw => b.partIndex pid
  | .ep => some pid

/-- A key entry. -/
def keyEnt (b : Blk) (d : Dev) (n : Nat) : KeyEnt := (b.core d).keys.get n KeyEnt.empty

/-- A key entry stored; the switch shows it in SW_FMEM_PART_i_KEY. -/
def putKey (b : Blk) (d : Dev) (n : Nat) (e : KeyEnt) : Blk :=
  let b := b.modCore d (fun c => { c with keys := c.keys.set n e KeyEnt.empty })
  match d with
  | .sw => b.putReg .sw (offFmemKey n) e.word
  | .ep => b

/-- The key entry of a partition; an empty one where the part holds none. -/
def pidKey (b : Blk) (d : Dev) (pid : Nat) : KeyEnt :=
  match b.keyNo d pid with
  | some n => b.keyEnt d n
  | none => KeyEnt.empty

/-- Whether the slot of a generation serves (R85, R325): the current one when it holds a key, the other one while it is PREVIOUS or
RETIRING. -/
def genServes (e : KeyEnt) (gen : Nat) : Bool :=
  if gen = e.g then e.cur.isSome else e.other == .previous || e.other == .retiring

/-- Whether a packet's KEY_GEN is accepted for its partition (R85). -/
def keyOk (b : Blk) (d : Dev) (pid gen : Nat) : Bool := genServes (b.pidKey d pid) gen

/-- The moment of the last acceptance under a generation (R327). -/
def noteKey (b : Blk) (d : Dev) (pid gen : Nat) : Blk :=
  match b.keyNo d pid with
  | none => b
  | some n =>
    let e := b.keyEnt d n
    b.putKey d n (if gen = e.g then { e with lastCur := b.now d } else { e with lastOld := b.now d })

end Blk

end Sys2Proof.Machine
end

