-- ==== Sys2Proof/Machine/FabricMemory.lean ====
section
/-! DEFINITION. Fabric memory of the switch: windows, lines and their encryption, the exception list, the BAR2 window, the recoat
sweep and the scrub (R306-R334, R68). A line is known by its number, node offset bits [43:6]. -/

namespace Sys2Proof.Machine

open Sys2Proof

namespace Blk

/-! ## The exception list (R326) -/

def ueValid (b : Blk) (n : Nat) : Bool := b.flag .sw (offUe n) 63
def ueForced (b : Blk) (n : Nat) : Bool := b.flag .sw (offUe n) 62
def uePart (b : Blk) (n : Nat) : Nat := b.fld .sw (offUe n) 61 56
def ueLine (b : Blk) (n : Nat) : Nat := b.fld .sw (offUe n) 37 0

/-- The entry that holds a line. -/
def ueFind (b : Blk) (l : Nat) : Option Nat := (upto 64).find? (fun n => b.ueValid n && b.ueLine n == l)

def ueFree (b : Blk) : Option Nat := (upto 64).find? (fun n => !b.ueValid n)

def lineForced (b : Blk) (l : Nat) : Bool :=
  match b.ueFind l with
  | some n => b.ueForced n
  | none => false

/-- A line entered in the list, once. -/
def ueEnter (b : Blk) (i l : Nat) : Blk :=
  match b.ueFind l, b.ueFree with
  | none, some n => b.putReg .sw (offUe n) (2 ^ 63 + i * 2 ^ 56 + l % 2 ^ 38)
  | _, _ => b

/-- The entry of a line freed by a whole-line write; an unforced one leaves OLD_LINES (R326). -/
def ueRelease (b : Blk) (l : Nat) : Blk :=
  match b.ueFind l with
  | none => b
  | some n =>
    let i := b.uePart n
    let b := if b.ueForced n then b else b.setFld .sw (offFmemOld i) 33 0 (b.fld .sw (offFmemOld i) 33 0 - 1)
    b.putReg .sw (offUe n) 0

/-! ## What the ECC finds (R329, R330) -/

/-- An uncorrectable line of fabric memory met by a request or by the sweep: degraded. -/
def lineUe (b : Blk) (pid l : Nat) : Blk :=
  let b := b.modSw (fun s => { s with badLines := addNew s.badLines l, ueRows := addNew s.ueRows l })
  b.hbmUe (b.linePc l) 1 pid (64 * l)

/-- What reading a line finds; an access to a FORCED line changes nothing (R326). -/
def lineRead (b : Blk) (pid : Nat) (ecc : Ecc) (l : Nat) : Blk :=
  if b.lineForced l then b else if b.lineBad ecc l then b.lineUe pid l else if ecc.ce.contains l then b.lineCe l else b

/-! ## Lines under a key (R316-R318, R325) -/

/-- The key of a slot by generation. -/
def slotKey (e : KeyEnt) (gen : Nat) : Option KeyVal := if gen = e.g then e.cur else e.otherKey

/-- The content of line l as a read of partition index i decrypts it: under another key than its own, what that decryption gives (R317). -/
def lineData (b : Blk) (i l : Nat) (x : Line) : List Byte :=
  if x.init then zeros 64
  else match slotKey (b.keyEnt .sw i) x.gen with
    | none => zeros 64
    | some k => if k.key = x.key then x.data else (upto 64).map (Config.xtsDecrypt k.key (64 * l) (x.stored l))

/-- Status of a read, a partial write or an atomic of a line: KEY_RETIRED for a forced entry or a retired slot, HOME_ERROR for an
uncorrectable line (R86, R326, R69). -/
def lineStatus (b : Blk) (i : Nat) (ecc : Ecc) (l : Nat) (x : Line) : Nat :=
  if b.lineForced l then 5
  else if b.lineBad ecc l then 0xC
  else if x.init || genServes (b.keyEnt .sw i) x.gen then 0 else 5

end Blk

/-- A line of fabric memory. -/
def State.line (s : State) (l : Nat) : Line := s.fmem.get l Line.unlisted

namespace State

/-- A line stored whole under the current slot; without a key in that slot, what a later read gives is free. -/
def storeLine (s : State) (i l : Nat) (data : List Byte) : State :=
  let e := s.b.keyEnt .sw i
  let (k, b) := match e.cur with
    | some k => (k.key, s.b)
    | none => let (r, b) := s.b.fresh; (BitVec.ofNat 512 (Config.freeNat r), b)
  let b := (b.ueRelease l).modSw (fun w => { w with badLines := without w.badLines l })
  { s with b := b, fmem := s.fmem.set l { init := false, gen := e.g, key := k, data := data } Line.unlisted }

/-- Bytes of a window read: status and data. -/
def fmRead (s : State) (i pid off len : Nat) (ecc : Ecc) : Nat × List Byte × State :=
  let ls := Blk.linesOf off len
  let st := firstStatus (ls.map (fun l => s.b.lineStatus i ecc l (s.line l)))
  let data := slice (ls.flatMap (fun l => s.b.lineData i l (s.line l))) (off % 64) len
  (st, data, { s with b := s.b.forEach ls (fun b l => b.lineRead pid ecc l) })

/-- One line of a write: a whole line is stored; a partial one is read, merged and stored (R68, R318, R325). -/
def fmWriteLine (i pid off : Nat) (bytes : List Byte) (ecc : Ecc) (a : Nat × State) (l : Nat) : Nat × State :=
  let s := a.2
  let lo := max off (64 * l)
  let hi := min (off + bytes.length) (64 * l + 64)
  let part := (bytes.drop (lo - off)).take (hi - lo)
  if part.length = 64 then (a.1, s.storeLine i l part)
  else
    let st := s.b.lineStatus i ecc l (s.line l)
    let old := s.b.lineData i l (s.line l)
    let s := { s with b := s.b.lineRead pid ecc l }
    if st = 0 then (a.1, s.storeLine i l (overlay old (lo - 64 * l) part)) else (firstStatus [a.1, st], s)

/-- Bytes written to a window; lines that cannot be written stay as they were (R69). -/
def fmWrite (s : State) (i pid off : Nat) (bytes : List Byte) (ecc : Ecc) : Nat × State :=
  (Blk.linesOf off bytes.length).foldl (fmWriteLine i pid off bytes ecc) (0, s)

end State

namespace Blk

/-! ## BAR2 (R320-R322, R116) -/

/-- Whether a BAR2 access is served: its partition index, or none. -/
def bar2Part (b : Blk) (off len : Nat) : Option Nat :=
  let i := b.fld .sw offBar2Sel 5 0
  if b.flag .sw offBar2Sel 63 && !b.partMasked i && b.winHolds i off len then some i else none

/-! ## The recoat sweep (R324) -/

def sweepActive (b : Blk) (i : Nat) : Bool := b.flag .sw (offFmemSweep i) 25
def sweepPtr (b : Blk) (i : Nat) : Nat := b.fld .sw (offFmemSweep i) 63 26
def oldLines (b : Blk) (i : Nat) : Nat := b.fld .sw (offFmemOld i) 33 0

/-- The pointer moves past a line; behind the window's last line the sweep ends. -/
def sweepNext (b : Blk) (i : Nat) : Blk :=
  let p := b.sweepPtr i
  let b := b.setFld .sw (offFmemSweep i) 63 26 (p + 1)
  if b.winLast i ≤ p then b.setFlag .sw (offFmemSweep i) 25 false else b

/-- A line that is current leaves OLD_LINES. -/
def sweepCount (b : Blk) (i : Nat) : Blk := b.setFld .sw (offFmemOld i) 33 0 (b.oldLines i - 1)

/-- Lines that hold a forced entry of a partition. -/
def forcedCount (b : Blk) (i : Nat) : Nat := ((upto 64).filter (fun n => b.ueValid n && b.ueForced n && b.uePart n == i)).length

/-- The sweep starts (R324); a partition without a window has OLD_LINES 0 and its sweep ends at once. -/
def sweepStart (b : Blk) (i : Nat) : Blk :=
  if b.winReady i then
    let n := b.winLast i + 1 - b.winFirst i - b.forcedCount i
    let b := b.setFld .sw (offFmemOld i) 33 0 n
    ((b.setFld .sw (offFmemSweep i) 63 26 (b.winFirst i)).setFlag .sw (offFmemSweep i) 25 true).setFlag .sw (offFmemSweep i) 24 false
  else (b.setFld .sw (offFmemOld i) 33 0 0).setFlag .sw (offFmemSweep i) 25 false

end Blk

/-- One step of the sweep of a partition, where its engine's calendar lets it (R373): the list full holds it; a forced line is passed; an uncorrectable one is entered and stays
counted; any other is stored under the current slot where it is not yet, and leaves the count. -/
def State.sweepOne (s : State) (i : Nat) (ecc : Ecc) : State :=
  let b := s.b
  let l := b.sweepPtr i
  if !b.sweepActive i || b.flag .sw offStatus 12 || !b.serving .sw || b.homeStopped (64 * l) 64 || !b.calMay 72 (b.partId i) then s
  else if b.ueFree.isNone then { s with b := b.setFlag .sw (offFmemSweep i) 24 true }
  else
    let b := b.setFlag .sw (offFmemSweep i) 24 false
    if b.lineForced l then { s with b := b.sweepNext i }
    else if b.lineBad ecc l then { s with b := ((b.lineUe (b.partId i) l).ueEnter i l).sweepNext i }
    else
      let x := s.line l
      let data := b.lineData i l x
      let s := { s with b := b.lineRead (b.partId i) ecc l }
      let s := if !x.init && x.gen != (b.keyEnt .sw i).g then s.storeLine i l data else s
      { s with b := (s.b.sweepCount i).sweepNext i }

namespace Blk

/-! ## The scrub (R331) -/

/-- The partition whose window holds a line. -/
def lineOwner (b : Blk) (l : Nat) : Nat :=
  if b.fmemLines ≤ l then 0
  else match b.winOf l with
    | some i => b.partId i
    | none => 0

/-- A row in which two corrected lines or an uncorrectable one were found before goes to a spare row, or the bank has none left. -/
def remapRow (b : Blk) (l : Nat) : Blk :=
  let r := b.rowOf l
  let here := fun x : Nat => decide (b.rowOf x = r)
  if 2 ≤ (b.sw.ceLines.filter here).length ∨ (b.sw.ueRows.any here) = true then
    let taken := (b.sw.remapped.filter (fun x => x.pc == r.pc && x.bank == r.bank)).length
    if taken < Config.spareRows r.pc r.bank then
      let b := b.modSw (fun s => { s with remapped := s.remapped ++ [r], ceLines := s.ceLines.filter (fun x => !here x),
                                          ueRows := s.ueRows.filter (fun x => !here x) })
      (b.count .sw offHbmErr 15 8 1).errRecord .sw
        { cls := 1, source := 0x06, event := 0x02, action := 0, inst := r.pc, part := b.lineOwner l, detail := 64 * l }
    else if b.flag .sw offHbmErr 0 then b
    else (b.setFlag .sw offHbmErr 0 true).errRecord .sw
      { cls := 1, source := 0x06, event := 0x03, action := 1, inst := r.pc, part := b.lineOwner l, detail := 64 * l }
  else b

/-- What the scrub finds in a line: as an access finds it (R329, R330); a bad line of the overflow or the ring goes on failing until it is
written. -/
def scrubFinds (b : Blk) (l : Nat) (ecc : Ecc) : Blk :=
  if b.lineBad ecc l then
    if l < b.fmemLines then b.lineUe (b.lineOwner l) l
    else (b.modSw (fun s => { s with badLines := addNew s.badLines l })).plainUe l
  else if ecc.ce.contains l then b.lineCe l else b

/-- The scrub visits a line of a carve, where the engine's calendar lets it (R373): first its row is remapped if what was found before asks
for it, then the line is read. When every line of every carve has been visited, a pass is complete (log 139). -/
def scrubOne (b : Blk) (l : Nat) (ecc : Ecc) : Blk :=
  if !b.serving .sw || decide (b.carveLines ≤ l) || b.homeStopped (64 * l) 64 || !b.calMay 72 (b.lineOwner l) then b
  else
    let b := (b.remapRow l).scrubFinds l ecc
    let seen := addNew b.sw.scrubbed l
    if b.carveLines ≤ (seen.filter (fun x => decide (x < b.carveLines))).length then
      (b.modSw (fun s => { s with scrubbed := [] })).wrapCount .sw offHbmStatus 63 32 1
    else b.modSw (fun s => { s with scrubbed := seen })

end Blk

/-! ## Meanings -/

/-- Whether a BAR2 access must wait: for one received before it, for an engine that has stopped, for an OPEN slot (R116, R373, R429). -/
def State.bar2Waits (s : State) (off len : Nat) : Bool :=
  s.b.sw.waiting.any (fun i => match i with | .bar2Write _ _ _ => true | .bar2Read _ _ _ => true | _ => false)
    || s.b.homeStopped off len || !s.b.calMay 72 0

/-- A command that waits for an engine or the reduction complex (R373, R429). -/
def State.wait (s : State) (i : Instr) : State := { s with b := s.b.waitSw i }

/-- BAR2_WRITE (R320, R116): in order of receipt, encrypted under the current slot; a refused one is dropped and counted. -/
def execBar2Write (off : Nat) (bytes : List Byte) (ecc : Ecc) (s : State) : Res :=
  .next (if !s.b.inRun .sw then s
    else if s.bar2Waits off bytes.length then s.wait (.bar2Write off bytes ecc)
    else match s.b.bar2Part off bytes.length with
      | none => { s with b := s.b.count .sw offBar2Stat 63 32 1 }
      | some i => (s.fmWrite i (s.b.partId i) off bytes ecc).2)

/-- BAR2_READ (R320, R116): in order of receipt; completes with data, or with Completer Abort. -/
def execBar2Read (off len : Nat) (ecc : Ecc) (s : State) : Res :=
  .next (if !s.b.inRun .sw then s
    else if s.bar2Waits off len then s.wait (.bar2Read off len ecc)
    else match s.b.bar2Part off len with
      | none => { s with b := (s.b.count .sw offBar2Stat 31 0 1).emit (.bar2Abort off) }
      | some i =>
        let (st, data, s) := s.fmRead i (s.b.partId i) off len ecc
        if st = 0 then { s with b := s.b.emit (.bar2Data off data) }
        else { s with b := (s.b.count .sw offBar2Stat 31 0 1).emit (.bar2Abort off) })

/-- SWEEP_STEP (R324, R373). -/
def execSweepStep (i : Nat) (ecc : Ecc) (s : State) : Res := if hasIndex i then .next (s.sweepOne i ecc) else .fault .noSuchUnit

/-- SCRUB_STEP (R331, R373). -/
def execScrubStep (line : Nat) (ecc : Ecc) (s : State) : Res := s.on (fun b => b.scrubOne line ecc)

end Sys2Proof.Machine
end

