-- ==== Sys2Proof/Machine/Directory.lean ====
section
/-! DEFINITION. What the end point's packets share: arrival checks and sending; the far cache and its invalidation; the island table,
the directory and its INVALIDATEs (R97-R100, R108, R110, R117-R127, R541). -/

namespace Sys2Proof.Machine

open Sys2Proof

namespace Blk

/-! ## Packets at an end-point port -/

/-- A packet discarded at a port without a counter of its own (R416, R542). -/
def otherDrop (b : Blk) (d : Dev) (port : Nat) : Blk := b.count d (offPort d port 0x18) 15 0 1

/-- Whether a packet that carries a DEADLINE has expired at a part. -/
def lateAt (b : Blk) (d : Dev) (p : Packet) : Bool :=
  (match opcodeRow (Packet.opcode p) with | some (_, _, _, dl) => dl | none => false) && expired (b.timeNs d) (Packet.deadline p)

/-- Header checks of a packet at an end-point port (R541, R42, R9, R58): whether it is taken, with its credits returned and its
discard counted. -/
def arrive (b : Blk) (port : Nat) (p : Packet) (dstOk : Bool) : Bool × Blk :=
  let b := b.owe .ep port (Packet.tc p) (Packet.slots p)
  if !dstOk then (false, b.otherDrop .ep port)
  else if !Packet.hcrcOk p then (false, b.count .ep (offPort .ep port 0x10) 47 32 1)
  else if Packet.malformed p then (false, b.count .ep (offPort .ep port 0x10) 63 48 1)
  else if b.lateAt .ep p then (false, b.otherDrop .ep port)
  else (true, b)

/-- Header and payload checks: a tail-marked packet or a failing CHECK is never applied (R44). -/
def arriveWhole (b : Blk) (port : Nat) (p : Packet) (dstOk : Bool) : Bool × Blk :=
  match b.arrive port p dstOk with
  | (false, b) => (false, b)
  | (true, b) => if Packet.tailMarked p || !Packet.checkOk p then (false, b.otherDrop .ep port) else (true, b)

/-- Whether a packet's DST_NODE is the end point's own node. -/
def mine (b : Blk) (p : Packet) : Bool := Packet.dst p == b.ep.node

/-- A packet sent by the end point out of a port; it waits there while the port is not UP (R35). -/
def epSend (b : Blk) (port : Nat) (p : Packet) : Blk := b.sendOn .ep port p

/-! ## Node table (R22, R139) -/

def nodeValid (b : Blk) (n : Nat) : Bool := b.flag .ep (offNode n) 31
def nodeLevel (b : Blk) (n : Nat) : Nat := b.fld .ep (offNode n) 30 29
def nodeRoute (b : Blk) (n : Nat) : Nat := b.fld .ep (offNode n) 3 0

/-- The lowest plane with a route to a node whose port is UP. -/
def firstPlane (b : Blk) (node : Nat) : Option Nat := (upto 4).find? (fun p => bitOf (b.nodeRoute node) p && b.portUp .ep p)

/-! ## Contexts -/

end Blk

/-- A context that is not in use. -/
def Ctx.idle : Ctx :=
  { desc := none, lastEpoch := none, epochSent := [], newDesc := none, saved := false, prog := [],
    faulted := none, parked := none, firstFail := none, heldDirect := [], plane := 0, planeWait := none, engine := none, stop := 0, abortWhy := 0 }

namespace Blk

def ctx (b : Blk) (n : Nat) : Ctx := b.ep.ctxs.get n Ctx.idle

def setCtx (b : Blk) (n : Nat) (c : Ctx) : Blk := b.modEp (fun e => { e with ctxs := e.ctxs.set n c Ctx.idle })

def modCtx (b : Blk) (n : Nat) (f : Ctx → Ctx) : Blk := b.setCtx n (f (b.ctx n))

/-- PARTITION of a context's descriptor; 0 without one. -/
def ctxPart (b : Blk) (n : Nat) : Nat :=
  match (b.ctx n).desc with
  | some d => d.partition
  | none => 0

/-! ## The far cache (R97-R100, R110) -/

/-- Whether a request is a far-cache fill. -/
def Req.fills (r : Req) : Bool :=
  match r.why with
  | .load _ _ _ f => f
  | _ => false

/-- Whether a key entry holds a MASKED key. -/
def entMasked (e : KeyEnt) : Bool :=
  (match e.cur with
    | some k => k.masked
    | none => false)
  || (match e.otherKey with
    | some k => k.masked
    | none => false)

/-- Whether the far cache holds, or may still install, lines of a partition that had a MASKED key (R380). -/
def lockLines (b : Blk) : Bool :=
  b.ep.fc.any (fun l => b.ep.lockParts.contains l.part)
    || b.ep.reqs.any (fun r => Req.fills r && r.sent && !r.noInstall && b.ep.lockParts.contains (b.ctxPart r.ctx))

/-- MASKED of EP_SEC_STATE; LOCK is lifted once no MASKED key is held and no line of those partitions is left (R380, R381). -/
def refreshEpSec (b : Blk) : Blk :=
  let n := (b.epc.keys.filter (fun e => entMasked e.2)).length
  let b := b.setFld .ep offSecState 31 24 n
  if n = 0 ∧ b.lockLines = false then (b.setFlag .ep offSecState 0 false).modEp (fun e => { e with lockParts := [] }) else b

/-- Far-cache lines that a test picks, by node, line, partition and generation, invalidated; fills in flight for them are marked (R110). -/
def fcDropGen (b : Blk) (pick : Nat → Nat → Nat → Nat → Bool) : Blk :=
  let parts := fun r : Req => b.ctxPart r.ctx
  (b.modEp (fun e => { e with
    fc := e.fc.filter (fun l => !pick l.node l.line l.part l.gen),
    reqs := e.reqs.map (fun r => if Req.fills r && r.sent && pick r.node (r.off / 64) (parts r) r.keyGen then { r with noInstall := true } else r) })).refreshEpSec

/-- Far-cache lines that a test picks, by node, line and partition, invalidated. -/
def fcDrop (b : Blk) (pick : Nat → Nat → Nat → Bool) : Blk := b.fcDropGen (fun n l p _ => pick n l p)

/-- The lines that hold any of a run of bytes of a node (R99). -/
def fcDropBytes (b : Blk) (node off len : Nat) : Blk :=
  b.fcDrop (fun n l _ => n == node && decide (off / 64 ≤ l) && decide (64 * l < off + len))

/-! ## Coherence packets (R126) -/

/-- A coherence packet of the end point: short, 32 zero bytes, DEADLINE 20 µs ahead (R121). -/
def cohPacket (b : Blk) (op dst part plane off cohOp lines snoop : Nat) (all : Bool) : Packet :=
  mkPacket { tc := 0, opcode := op, part := part, keyGen := (b.pidKey .ep part).g, plane := plane, dst := dst, src := b.ep.node,
             deadline := setDeadline (b.timeNs .ep) 20000,
             low := packBits [(44, off), (4, cohOp), (6, lines), (16, snoop), (1, b2n all), (25, 0)] } false (zeros 32)

/-! ## The island (R117) -/

def islandValid (b : Blk) (n : Nat) : Bool := b.flag .ep (offIsland n) 63
def islandNode (b : Blk) (n : Nat) : Nat := b.fld .ep (offIsland n) 13 0

/-- Which island entry names a node. -/
def memberOf (b : Blk) (node : Nat) : Option Nat := (upto 3).find? (fun n => b.islandValid n && b.islandNode n == node)

/-- DROP_ALL sent to a node (R123): one partition, or all. -/
def sendDropAll (b : Blk) (node : Nat) (part : Option Nat) : Blk :=
  match b.firstPlane node with
  | none => b
  | some pl =>
    let pid := part.getD 1
    b.epSend pl (b.cohPacket 0x18 node pid pl 0 1 0 0 part.isNone)

/-- DROP_ALL to every island member after a whole partition was invalidated. -/
def dropAllMembers (b : Blk) (part : Option Nat) : Blk :=
  b.forBelow 3 (fun b n => if b.islandValid n then b.sendDropAll (b.islandNode n) part else b)

/-- Every far-cache line of a partition invalidated (R100, R108), and the island told. -/
def fcDropPart (b : Blk) (part : Nat) : Blk := (b.fcDrop (fun _ _ p => p == part)).dropAllMembers (some part)

/-! ## Windows of the end point (R81, R82) -/

def hwinValid (b : Blk) (n : Nat) : Bool := b.flag .ep (offHwinCtl n) 63

/-- The window that holds bytes of the accelerator's memory. -/
def hwinOf (b : Blk) (off len : Nat) : Option Nat :=
  (upto 64).find? (fun n => b.hwinValid n && decide (b.fld .ep (offHwinBase n) 43 21 * 2 ^ 21 ≤ off)
    && decide (off + len ≤ (b.fld .ep (offHwinCtl n) 43 21 + 1) * 2 ^ 21))

/-- PARTITION of the window that holds an offset; 0 for none. -/
def hwinPart (b : Blk) (off : Nat) : Nat :=
  match b.hwinOf off 1 with
  | some n => b.fld .ep (offHwinCtl n) 55 44
  | none => 0

/-! ## The directory (R119, R120) -/

def dirBits (b : Blk) (line : Nat) : Nat :=
  match b.ep.dir.find? (fun e => e.line == line) with
  | some e => e.bits
  | none => 0

/-- Presence bits of a line replaced; an entry without bits is gone. -/
def setDirBits (b : Blk) (line bits : Nat) : Blk :=
  let dir := if bits = 0 then b.ep.dir.filter (fun x => !(x.line == line))
    else if b.ep.dir.any (fun x => x.line == line) then b.ep.dir.map (fun x => if x.line == line then { x with bits := bits } else x)
    else b.ep.dir ++ [{ line := line, bits := bits }]
  b.modEp (fun e => { e with dir := dir })

/-- A line's entry is the most recently used: it stands last (R119). -/
def dirTouch (b : Blk) (line : Nat) : Blk :=
  b.modEp (fun e => { e with dir := e.dir.filter (fun x => !(x.line == line)) ++ e.dir.filter (fun x => x.line == line) })

/-- The presence bit of a READ that ends with OK. -/
def dirRecord (b : Blk) (x : DirPlan) : Blk := (b.setDirBits x.line (putBits (b.dirBits x.line) x.member x.member 1)).dirTouch x.line

def clearDirBit (b : Blk) (line m : Nat) : Blk :=
  let w := b.dirBits line
  if bitOf w m then b.setDirBits line (w - 2 ^ m) else b

/-- A SNOOP_ID that is neither outstanding nor used in the last 20 µs (R124). -/
def snoopIdFrom (b : Blk) : Nat → Nat → Nat
  | 0, id => id
  | fuel + 1, id =>
    let used := b.ep.snoops.any (fun x => x.id == id)
    let recent := (match b.ep.snoopUse.find id with | some t => decide (b.now .ep < t + 20000) | none => false)
    if used || recent then snoopIdFrom b fuel ((id + 1) % 65536) else id

/-- One INVALIDATE sent, or sent again with the same SNOOP_ID (R121). -/
def sendSnoop (b : Blk) (x : Snoop) : Blk :=
  let t := b.now .ep
  let b := b.modEp (fun e => { e with snoopUse := e.snoopUse.insert x.id t,
                                      snoops := e.snoops.map (fun y => if y.id == x.id then { y with sentAt := t, out := true } else y) })
  match b.firstPlane x.node with
  | none => b
  | some pl => b.epSend pl (b.cohPacket 0x19 x.node x.part pl (64 * x.line) 2 (x.lines - 1) x.id false)

/-- INVALIDATEs that have been sent and not acknowledged (R124). -/
def snoopsOut (b : Blk) : Nat := (b.ep.snoops.filter (fun x => x.out)).length

/-- The oldest INVALIDATE not yet sent leaves once fewer than 4,096 are outstanding (R124). -/
def sendNextSnoop (b : Blk) : Blk :=
  if 4096 ≤ b.snoopsOut then b else
  match b.ep.snoops.find? (fun x => !x.out) with
  | some x => b.sendSnoop x
  | none => b

/-- Runs of consecutive lines, at most 64 long: first line and length. -/
def runs : List Nat → List (Nat × Nat)
  | [] => []
  | l :: r =>
    match runs r with
    | (f, n) :: rest => if f = l + 1 ∧ n < 64 then (l, n + 1) :: rest else (l, 1) :: (f, n) :: rest
    | [] => [(l, 1)]

/-- INVALIDATEs to one member for the lines it holds; answers their SNOOP_IDs. -/
def snoopMember (b : Blk) (m : Nat) (ls : List Nat) : List Nat × Blk :=
  (runs (ls.filter (fun l => bitOf (b.dirBits l) m))).foldl (fun st run =>
    let b := st.2
    let id := b.snoopIdFrom 65536 b.ep.nextSnoop
    let x : Snoop := { id := id, member := m, node := b.islandNode m, line := run.1, lines := run.2, part := b.hwinPart (64 * run.1),
                       sentAt := b.now .ep, out := false }
    let b := b.modEp (fun e => { e with snoops := e.snoops ++ [x], nextSnoop := (id + 1) % 65536 })
    (st.1 ++ [id], if b.snoopsOut < 4096 then b.sendSnoop x else b)) ([], b)

/-- INVALIDATEs to every sharer of written lines (R120). -/
def snoopLines (b : Blk) (ls : List Nat) : List Nat × Blk :=
  (upto 3).foldl (fun st m => let (ids, b) := st.2.snoopMember m ls; (st.1 ++ ids, b)) ([], b)

/-- Entries in a line's set of the directory, least recently used first. -/
def dirSet (b : Blk) (line : Nat) : List DirEnt :=
  b.ep.dir.filter (fun e => Config.dirSet e.line % 98304 == Config.dirSet line % 98304)

/-- Lines being evicted for a READ that waits. -/
def evicting (b : Blk) : List Nat :=
  b.ep.home.pend.filterMap (fun x => if x.snoops.isEmpty then none else x.addDir.bind (fun a => a.victim))

/-- Lines for which a READ that has not ended keeps a way. -/
def reserved (b : Blk) : List Nat := b.ep.home.pend.filterMap (fun x => x.addDir.map (fun a => a.line))

/-- The way that a READ of a line by a member gets (R119): that of the line's entry, a free one, or a victim's; none while every way of the
set is kept for others. Which victim pseudo-LRU takes is free, but never the entry used last (log 33). -/
def dirPlan (b : Blk) (line m : Nat) : Option (DirPlan × Blk) :=
  let held := (b.dirSet line).filter (fun e => !b.evicting.contains e.line)
  let lines := held.map (fun e => e.line)
  if lines.contains line || b.reserved.contains line then some ({ line := line, member := m, victim := none }, b)
  else
    let kept := ((b.reserved.filter (fun l => Config.dirSet l % 98304 == Config.dirSet line % 98304 && !lines.contains l)).foldl addNew [])
    if lines.length + kept.length < 16 then some ({ line := line, member := m, victim := none }, b)
    else
      let (r, b) := b.fresh
      let may := lines.dropLast.filter (fun l => !b.reserved.contains l)
      match may[Config.freeNat r % may.length]? with
      | none => none
      | some v => some ({ line := line, member := m, victim := some v }, b)

end Blk

end Sys2Proof.Machine
end

