-- ==== Sys2Proof/Machine/Tally.lean ====
section
/-! DEFINITION. Tallies of the end point: credits, firing, and the writes of their registers (R146-R149, R463). -/

namespace Sys2Proof.Machine

open Sys2Proof

namespace Blk

def tallyValid (b : Blk) (n : Nat) : Bool := b.flag .ep (offTallyCfg n) 63
def tallyOwner (b : Blk) (n : Nat) : Nat := b.fld .ep (offTallyCfg n) 54 45
def tallyCount (b : Blk) (n : Nat) : Nat := b.fld .ep (offTallyVal n) 31 0
def tallyTarget (b : Blk) (n : Nat) : Nat := b.fld .ep (offTallyVal n) 63 32

/-- COUNT c has reached x (R148). -/
def reached (c x : Nat) : Bool := decide ((c % 2 ^ 32 + 2 ^ 32 - x % 2 ^ 32) % 2 ^ 32 < 2 ^ 31)

/-- Whether a context owns a tally. -/
def owns (b : Blk) (ctx n : Nat) : Bool := b.tallyValid n && b.tallyOwner n == ctx

/-- A tally fires: FIRED, the pending bit with its vector, and the notice to the accelerator, as enabled (R148, R462). -/
def tallyFire (b : Blk) (n : Nat) : Blk :=
  let b := b.setFlag .ep (offTallyCfg n) 10 true
  let b := b.when_ (b.flag .ep (offTallyCfg n) 0) (fun b => b.setPending .ep (offTallyPend (n / 64)) (n % 64) (32 + n / 64 / 2))
  b.when_ (b.flag .ep (offTallyCfg n) 1) (fun b => b.emit (.ucie (.tallyNotice n)))

/-- ERR and FIRST_STATUS for a credit that is not OK (R149). -/
def tallyErr (b : Blk) (n st : Nat) : Blk :=
  if st = 0 then b
  else
    let b := if b.flag .ep (offTallyCfg n) 9 then b else b.setFld .ep (offTallyCfg n) 8 5 st
    b.setFlag .ep (offTallyCfg n) 9 true

/-- A credit of `k` with a status; one for a tally with VALID 0 is discarded and counted (R148, R149). -/
def credit (b : Blk) (n k st : Nat) : Blk :=
  if !b.tallyValid n then b.count .ep offEpHomeStat 15 0 1
  else
    let c := b.tallyCount n
    let b := b.setFld .ep (offTallyVal n) 31 0 (c + k)
    let b := b.tallyErr n st
    if !reached c (b.tallyTarget n) && reached (c + k) (b.tallyTarget n) then b.tallyFire n else b

/-- A credit of a context's descriptor reaches the tally only when the context owns it (R144). -/
def creditOwn (b : Blk) (ctx n k st : Nat) : Blk :=
  if b.tallyValid n && b.tallyOwner n != ctx then b else b.credit n k st

/-- A write of EP_TALLY_n_CFG (R146): OWNER is ignored while VALID is 1; VALID from 0 to 1 zeroes the count and its marks. -/
def writeTallyCfg (b : Blk) (n v : Nat) : Blk :=
  let o := offTallyCfg n
  let was := b.tallyValid n
  let b := if bitOf v 9 then b.setFlag .ep o 9 false else b
  let b := b.setFld .ep o 1 0 (bits v 1 0)
  let b := if was then b else b.setFld .ep o 54 45 (bits v 54 45)
  let b := b.setFlag .ep o 63 (bitOf v 63)
  if !was && bitOf v 63 then (b.setFld .ep o 10 5 0).setFld .ep (offTallyVal n) 31 0 0 else b

/-- TARGET written (R147, R148): FIRED clears, and a valid tally whose COUNT has reached it fires. -/
def writeTallyTarget (b : Blk) (n target : Nat) : Blk :=
  let b := b.setFld .ep (offTallyVal n) 63 32 target
  let b := b.setFlag .ep (offTallyCfg n) 10 false
  if b.tallyValid n && reached (b.tallyCount n) target then b.tallyFire n else b

end Blk

/-- TALLY_CFG_WRITE (R146, R540). -/
def execTallyCfgWrite (n val : Nat) (s : State) : Res := s.onIf (hasTally n) (fun b => b.hostWrite .ep (fun b => b.writeTallyCfg n val))

/-- TALLY_TARGET_WRITE (R147, R148). -/
def execTallyTargetWrite (n target : Nat) (s : State) : Res :=
  s.onIf (hasTally n) (fun b => b.hostWrite .ep (fun b => b.writeTallyTarget n target))

end Sys2Proof.Machine
end

