-- ==== Sys2Proof/Machine/Requests.lean ====
section
/-! DEFINITION. Requests of the end point from their outcome on: streams, response tags, what an outcome does for the purpose of its
request, releases, direct stores, descriptor progress (R52-R56, R59, R60, R67, R76-R77, R89-R91, R98, R105-R109, R138, R149-R151,
R280). -/

namespace Sys2Proof.Machine

open Sys2Proof

/-- Whether a request belongs to a descriptor program. -/
def Purpose.isProg : Purpose → Bool
  | .prog _ => true
  | .copyRead _ _ _ => true
  | _ => false

/-- Engine of a direct access. -/
def Purpose.eng : Purpose → Option Nat
  | .load e _ _ _ => some e
  | .store e _ => some e
  | .atomic e => some e
  | .acqLoad e _ _ => some e
  | .relStore e => some e
  | .relAtomic e => some e
  | _ => none

/-- Whether a request takes a response tag (R89). -/
def Req.tagged (r : Req) : Bool := r.op == 1 || (decide (4 ≤ r.op) && decide (r.op ≤ 0xB))

/-- Whether a release covers a request (R106): not the writes of descriptor programs. -/
def Req.covered (r : Req) : Bool := !(r.why.isProg && (r.op == 2 || r.op == 3))

/-- Units a request counts against its stream's window (R280). -/
def Req.units (r : Req) : Nat :=
  let n := if r.op = 1 then r.rdBytes else if r.op = 2 then r.payload.length else 0
  max 1 ((n + 255) / 256)

namespace Blk

def findReq (b : Blk) (id : Nat) : Option Req := b.ep.reqs.find? (fun r => r.id == id)

def dropReq (b : Blk) (id : Nat) : Blk := b.modEp (fun e => { e with reqs := e.reqs.filter (fun r => !(r.id == id)) })

def updReq (b : Blk) (id : Nat) (f : Req → Req) : Blk :=
  b.modEp (fun e => { e with reqs := mapFirst (fun r => r.id == id) f e.reqs })

/-! ## Fields of a context's registers (R135, R151) -/

def ctxState (b : Blk) (n : Nat) : Nat := b.fld .ep (offCtxState n) 3 0
def setCtxState (b : Blk) (n v : Nat) : Blk := b.setFld .ep (offCtxState n) 3 0 v
def ctxEpoch (b : Blk) (n : Nat) : Nat := b.fld .ep (offCtxState n) 7 4

/-- A command or doorbell write refused with a cause (R135). -/
def cmdErr (b : Blk) (n cause : Nat) : Blk := (b.setFld .ep (offCtxState n) 20 17 cause).setFlag .ep (offCtxState n) 16 true

/-- A direct store or RELEASE_STORE reaches its outcome (R151). -/
def storeDone (b : Blk) (ctx st : Nat) : Blk :=
  let o := offCtxErr ctx
  let b := b.wrapCount .ep o 31 0 1
  if st = 0 then b
  else
    let b := if b.flag .ep o 63 then b else b.setFld .ep o 62 59 st
    b.setFlag .ep o 63 true

/-! ## Streams (R138, R280) -/

def streamFind (b : Blk) (k : StreamKey) : Option Stream := b.ep.streams.find? (fun x => decide (x.key = k))

def updStream (b : Blk) (k : StreamKey) (f : Stream → Stream) : Blk :=
  b.modEp (fun e => { e with streams := mapFirst (fun x => decide (x.key = k)) f e.streams })

/-- Stream of a request (R52). -/
def reqStream (b : Blk) (r : Req) : StreamKey := { src := b.ep.node, ctx := r.ctx, epoch := r.epoch, dst := r.node, tc := r.tc }

/-- A request of a stream reaches its outcome. DESIGN CHOICE: one that ended before it was sent took no SEQ and does not close its stream to
later topcoats (R76, log 142). -/
def streamDone (b : Blk) (r : Req) (st : Nat) : Blk :=
  if !r.sent then b
  else b.updStream (b.reqStream r) (fun x => { x with
    out := without x.out r.seq, tops := if r.op = 3 then x.tops - 1 else x.tops, units := x.units - r.units,
    fails := if st = 0 then x.fails else x.fails ++ [(r.seq, st)] })

/-- A marked response of a stream (R280): the window halves, at most once in HOLD. -/
def cwMark (b : Blk) (k : StreamKey) (marked : Bool) : Blk :=
  if !marked then b
  else
    let b := b.count .ep offCcStat 63 32 1
    match b.streamFind k with
    | none => b
    | some x =>
      let hold := 100 * b.fld .ep offCcCfg 31 24
      if b.flag .ep offCcCfg 0 && decide (x.lastDec = 0 ∨ x.lastDec + hold ≤ b.now .ep + 1) then
        let t := b.now .ep + 1
        let lo := b.fld .ep offCcCfg 43 32
        (b.updStream k (fun x => { x with cw := max lo (x.cw / 2), lastDec := t })).count .ep offCcStat 31 0 1
      else b

/-- The window of a stream grows after an INC_PERIOD without a decrease (R280). -/
def cwGrow (b : Blk) (k : StreamKey) : Blk :=
  match b.streamFind k with
  | none => b
  | some x =>
    let per := 100 * b.fld .ep offCcCfg 23 16
    let last := max x.lastInc (x.lastDec - 1)
    if b.flag .ep offCcCfg 0 && decide (last + per ≤ b.now .ep) then
      let t := b.now .ep
      let hi := b.fld .ep offCcCfg 63 44
      let step := b.fld .ep offCcCfg 15 4
      b.updStream k (fun x => { x with cw := min hi (x.cw + step), lastInc := t })
    else b

/-! ## Response tags (R89, R91) -/

end Blk

def TagEnt.fresh : TagEnt := { gen := 0, busy := false, ctx := 0, freeAt := none, orphan := false }

namespace Blk

def tag (b : Blk) (t : Nat) : TagEnt := b.ep.tags.get t TagEnt.fresh

def setTag (b : Blk) (t : Nat) (x : TagEnt) : Blk := b.modEp (fun e => { e with tags := e.tags.set t x TagEnt.fresh })

/-- A tag returns to the pool with TAG_GEN advanced. -/
def freeTag (b : Blk) (t : Nat) : Blk := b.setTag t { TagEnt.fresh with gen := ((b.tag t).gen + 1) % 8 }

/-- Tags of the pool that are free. -/
def tagsLeft (b : Blk) : Nat := 8192 - (b.ep.tags.filter (fun e => e.2.busy || e.2.freeAt.isSome || e.2.orphan)).length

/-- Tags a context holds; orphaned ones do not count (R165). -/
def tagsHeld (b : Blk) (ctx : Nat) : Nat := (b.ep.tags.filter (fun e => e.2.busy && !e.2.orphan && e.2.ctx == ctx)).length

/-- The tag of a request whose outcome is fixed: back at once, or 4L after the first issue when it was retried. -/
def tagDone (b : Blk) (r : Req) : Blk :=
  match r.tag with
  | none => b
  | some t =>
    if r.retry = 2 then b.setTag t { (b.tag t) with freeAt := some (r.first + 4 * lifetime r.life) }
    else b.freeTag t

/-! ## Releases and invalidations that wait for a request -/

/-- The earlier-issued of two failures: place in the order of issue, status. -/
def earlier (old : Option (Nat × Nat)) (order st : Nat) : Option (Nat × Nat) :=
  match old with
  | some (o, s) => if o ≤ order then some (o, s) else some (order, st)
  | none => some (order, st)

/-- The earliest-issued failure of a context's epoch (R106). -/
def noteFail (b : Blk) (ctx order st : Nat) : Blk :=
  if st = 0 then b else b.modCtx ctx (fun c => { c with firstFail := earlier c.firstFail order st })

/-- A request that ended enters the releases that cover it, and its context's record, where it failed (R106); one that was never sent is
refused now. -/
def noteOutcome (b : Blk) (r : Req) (st : Nat) : Blk :=
  if st = 0 ∨ r.covered = false then b
  else
    let ord := if r.sent then r.issued else b.ep.nextReq
    (b.modEp (fun e => { e with
      nextReq := if r.sent then e.nextReq else e.nextReq + 1,
      rels := e.rels.map (fun x => if x.covers.contains r.id then { x with fail := earlier x.fail ord st } else x) })).noteFail r.ctx ord st

def waitersDone (b : Blk) (id : Nat) : Blk :=
  b.modEp (fun e => { e with
    rels := e.rels.map (fun x => { x with covers := without x.covers id }),
    invs := e.invs.map (fun x => { x with counted := without x.counted id }) })

/-! ## Descriptor progress (R142, R149) -/

/-- A descriptor of a context has issued its last request: its engine counts it (R446). -/
def engineIssued (b : Blk) (ctx : Nat) : Blk :=
  match (b.ctx ctx).engine with
  | some e => b.count .ep (offCe e) 31 0 1
  | none => b

/-- A descriptor that has issued its last request leaves the chip. -/
def progEnd (b : Blk) (ctx : Nat) : Blk :=
  (b.engineIssued ctx).modCtx ctx (fun c => { c with prog := c.prog.drop 1 })

/-- One write of the descriptor in progress issued or ended. -/
def progStep (b : Blk) (ctx ring bytes : Nat) : Blk :=
  match (b.ctx ctx).prog with
  | d :: _ =>
    if d.ring = ring ∧ d.begun = true then
      if d.left ≤ 1 then b.progEnd ctx
      else b.modCtx ctx (fun c => { c with prog := match c.prog with
        | d :: r => { d with left := d.left - 1, bytes := d.bytes + bytes } :: r
        | [] => [] })
    else b
  | [] => b

/-- A write of a descriptor ends unsent with a status: credited, and counted as issued; reads that would have fed it alone are not sent any
more. -/
def writeEnds (b : Blk) (r : Req) (st : Nat) : Blk :=
  let b := (b.dropReq r.id).modEp (fun e => { e with reqs := e.reqs.filter (fun x => x.sent || !r.feeds.contains x.id) })
  let b := b.when_ r.cplEn (fun b => b.creditOwn r.ctx r.tally 1 st)
  match r.why with
  | .prog ring => b.progStep r.ctx ring 0
  | _ => b

/-- Data of a source READ reaches the write it feeds; a failed READ ends that write (R144, R149). -/
def feed (b : Blk) (id wid skip st : Nat) (data : List Byte) : Blk :=
  match b.findReq wid with
  | none => b
  | some w =>
    if st ≠ 0 then b.writeEnds w st
    else b.updReq wid (fun w =>
      let got := w.got ++ [(skip, data)]
      let feeds := without w.feeds id
      { w with feeds := feeds, got := if feeds.isEmpty then [] else got,
               payload := if feeds.isEmpty then got.foldl (fun a g => overlay a g.1 g.2) (zeros w.size_) else w.payload })

/-! ## The far cache filled (R97, R98) -/

/-- A line installed as the most recently used: in its set a free way, or that of a victim. Which victim pseudo-LRU takes is free, but never the
line used last (log 33). -/
def fcInstall (b : Blk) (node line part gen : Nat) (data : List Byte) : Blk :=
  let x : FcLine := { node := node, line := line, part := part, gen := gen, data := data }
  let same := fun l : FcLine => l.node == node && l.line == line && l.part == part
  let rest := b.ep.fc.filter (fun l => !same l)
  let mates := rest.filter (fun l => Config.fcSet l.node l.line % 32768 == Config.fcSet node line % 32768)
  if mates.length < 16 then b.modEp (fun e => { e with fc := rest ++ [x] })
  else
    let (r, b) := b.fresh
    let may := mates.dropLast
    match may[Config.freeNat r % may.length]? with
    | none => b
    | some v => b.modEp (fun e => { e with fc := rest.filter (fun l => decide (l ≠ v)) ++ [x] })

/-! ## Acquires (R108) -/

/-- What an acquire invalidates: at fabric scope the lines of its range, one by one for a block of at most 64 KiB. -/
def acquireRange (b : Blk) (ctx : Nat) (scope : Scope) (range : AcqRange) : Blk :=
  let part := b.ctxPart ctx
  match scope, range with
  | .fabric, .all => b.fcDropPart part
  | .fabric, .block addr k =>
    if 16 < k then b.fcDropPart part
    else b.fcDrop (fun n l p => p == part && n == addrNode addr && decide (addrOff addr / 64 ≤ l) && decide (64 * l < addrOff addr + 2 ^ k))
  | _, _ => b

/-! ## Outcomes (R60) -/

/-- What the arrival of the answer to an ACQUIRE_LOAD invalidates: the flag's line, then its range (R109). -/
def acqArrived (b : Blk) (id : Nat) : Blk :=
  match b.findReq id with
  | some r =>
    match r.why with
    | .acqLoad _ scope range => (b.fcDropBytes r.node r.off r.rdBytes).acquireRange r.ctx scope range
    | _ => b
  | none => b

def answerEng (b : Blk) (ctx eng st : Nat) (data : List Byte) : Blk := b.emit (.ucie (.answer ctx eng st data))

/-- A part of a direct store has its outcome (R67). -/
def storePart (b : Blk) (ctx sid st : Nat) : Blk :=
  match b.ep.stores.find? (fun x => x.id == sid) with
  | none => b
  | some x =>
    let b := if st = 0 then b else
      let o := offCtxErr ctx
      (if b.flag .ep o 63 then b else b.setFld .ep o 62 59 st).setFlag .ep o 63 true
    if x.left ≤ 1 then
      (b.modEp (fun e => { e with stores := e.stores.filter (fun y => !(y.id == sid)) })).wrapCount .ep (offCtxErr ctx) 31 0 1
    else b.modEp (fun e => { e with stores := e.stores.map (fun y => if y.id == sid then { y with left := y.left - 1 } else y) })

/-- What an outcome does for the purpose of its request. -/
def purposeDone (b : Blk) (r : Req) (st : Nat) (data : List Byte) : Blk :=
  match r.why with
  | .load eng skip size fill =>
    let b := b.when_ (fill && st == 0 && !r.noInstall) (fun b => b.fcInstall r.node (r.off / 64) (b.ctxPart r.ctx) r.keyGen data)
    b.answerEng r.ctx eng st (if st = 0 then slice data skip size else [])
  | .store _ sid => b.storePart r.ctx sid st
  | .atomic eng => b.answerEng r.ctx eng st (if st = 0 then data else [])
  | .acqLoad eng _ _ => b.answerEng r.ctx eng st (if st = 0 then data else [])
  | .relStore _ => b.storeDone r.ctx st
  | .relAtomic eng => b.answerEng r.ctx eng st (if st = 0 then data else [])
  | .prog _ => b.when_ r.cplEn (fun b => b.creditOwn r.ctx r.tally 1 st)
  | .copyRead _ wid skip => b.feed r.id wid skip st data

/-- A request's outcome is fixed. -/
def outcome (b : Blk) (r : Req) (st : Nat) (data : List Byte) : Blk :=
  let b := b.dropReq r.id
  let b := b.streamDone r st
  let b := b.tagDone r
  let b := b.noteOutcome r st
  let b := b.waitersDone r.id
  (b.purposeDone r st data).when_ (Req.fills r) (fun b => b.refreshEpSec)

/-- A request's outcome is fixed by number. -/
def outcomeId (b : Blk) (id st : Nat) (data : List Byte) : Blk :=
  match b.findReq id with
  | none => b
  | some r => b.outcome r st data

end Blk

end Sys2Proof.Machine
end

