-- ==== Sys2Proof/Machine/Home.lean ====
section
/-! DEFINITION. The home of both parts: order of checks, duplicate suppression, reads and writes, atomics, topcoats, answers and their
joining (R54, R58, R61-R64, R68-R80, R84-R87, R92-R96, R115, R119, R120). -/

namespace Sys2Proof.Machine

open Sys2Proof

/-! ## Requests -/

namespace Packet

/-- Stream of a request (R52). -/
def stream (p : Packet) : StreamKey := { src := src p, ctx := ctx p, epoch := epoch p, dst := dst p, tc := tc p }

/-- Whether a request's form is supported at the home (R63, R70, R75): operation, OPQ, size and alignment. TALLY_INC is checked on
its own. -/
def formOk (p : Packet) : Bool :=
  let op := opcode p
  let off := offset p
  let q := opq p
  let n := len p + 1
  let sz := opqSize p
  if op = 1 then q == 0 && decide (off % 4096 + rdBytes p ≤ 4096)
  else if op = 2 then q == 0 && (if isLong p then off % 256 == 0 && decide (off % 4096 + payloadBytes p ≤ 4096) else decide (off % 64 + n ≤ 64))
  else if op = 3 then q == 0 && ((n == 12 && off % 4 == 0) || (n == 16 && off % 8 == 0))
  else if op = 4 then decide (q ≤ 4) && n == sz && off % sz == 0
  else if op = 6 then (q == 1 || q == 3 || q == 5) && n == 2 * sz && off % sz == 0
  else if op = 5 ∨ (7 ≤ op ∧ op ≤ 0xB) then decide (q ≤ 3) && n == sz && off % sz == 0
  else false

end Packet

/-! ## Arithmetic of the atomics (R70, R71) -/

/-- Position of the highest bit set, plus one. -/
def bitLen (n : Nat) : Nat := if n = 0 then 0 else Nat.log2 n + 1

/-- A finite FP32 value in units of 2^-149. -/
def fp32Units (x : Nat) : Int :=
  let e := bits x 30 23
  let m := bits x 22 0
  let v : Nat := if e = 0 then m else (m + 2 ^ 23) * 2 ^ (e - 1)
  if bitOf x 31 then -(v : Int) else (v : Int)

/-- A magnitude in units of 2^-149 rounded to FP32, to nearest, ties to even; too large a one is an infinity. -/
def fp32Round (neg : Bool) (v : Nat) : Nat :=
  let s := if neg then 2 ^ 31 else 0
  let k := bitLen v - 24
  let q := v >>> k
  let r := v - q <<< k
  let half := if k = 0 then 0 else 2 ^ (k - 1)
  let up := decide (0 < k) && (decide (half < r) || (r == half && q % 2 == 1))
  let y := k * 2 ^ 23 + q + b2n up
  s + (if 0x7F800000 ≤ y then 0x7F800000 else y)

/-- FP32 addition of R71. -/
def fp32Add (x y : Nat) : Nat :=
  let nan := fun a : Nat => bits a 30 23 == 255 && bits a 22 0 != 0
  let inf := fun a : Nat => bits a 30 0 == 0x7F800000
  if nan x || nan y then 0x7FC00000
  else if inf x && inf y then (if bitOf x 31 == bitOf y 31 then x else 0x7FC00000)
  else if inf x then x
  else if inf y then y
  else
    let v := fp32Units x + fp32Units y
    if v = 0 then (if x == 0x80000000 && y == 0x80000000 then 0x80000000 else 0)
    else fp32Round (decide (v < 0)) v.natAbs

/-- The new value of a fetching atomic (R70): opcode, OPQ, size, old value, operand (for COMPARE_SWAP compare and swap values). -/
def atomicNew (op q sz old opnd : Nat) : Nat :=
  let w := 8 * sz
  let o := opnd % 2 ^ w
  let signed := q == 0 || q == 1
  let lt := fun a b : Nat => if signed then decide (toSigned w a < toSigned w b) else decide (a < b)
  if op = 4 then (if q = 4 then fp32Add old o else (old + o) % 2 ^ w)
  else if op = 5 then o
  else if op = 6 then (if old = o then opnd / 2 ^ w % 2 ^ w else old)
  else if op = 7 then old &&& o
  else if op = 8 then old ||| o
  else if op = 9 then old ^^^ o
  else if op = 0xA then (if lt o old then o else old)
  else (if lt old o then o else old)

/-! ## Operations on the accelerator's memory -/

/-- Bytes an operation of the home reads or writes: offset and number. -/
def HomeOp.range : HomeOp → Nat × Nat
  | .done off len => (off, len)
  | .read off len => (off, len)
  | .write off bytes _ => (off, bytes.length)
  | .rmw off _ _ size _ => (off, size)

/-- Whether an operation of the home writes. -/
def HomeOp.writes : HomeOp → Bool
  | .read _ _ => false
  | _ => true

/-- FLAG of a topcoat (R75). -/
def flagOf (p : Packet) : List Byte := slice p.payload 8 (Packet.reqBytes p)

/-- What a memory request does. -/
def Packet.homeOp (p : Packet) : HomeOp :=
  let op := Packet.opcode p
  if op = 1 then .read (Packet.offset p) (Packet.rdBytes p)
  else if op = 2 then .write (Packet.offset p) ((Packet.wire p).take (Packet.payloadBytes p)) false
  else if op = 3 then .write (Packet.offset p) (flagOf p) true
  else .rmw (Packet.offset p) op (Packet.opq p) (Packet.reqBytes p) (slice p.payload 0 (2 * Packet.reqBytes p))

namespace Blk

/-! ## Answers (R40, R54, R58) -/

/-- Lifetime level of a source at a home (R96). -/
def levelOf (b : Blk) (d : Dev) (src : Nat) : Nat :=
  match d with
  | .sw => if b.flag .sw (offRoute src) 63 then b.levelTo src else 2
  | .ep => if b.nodeValid src then b.nodeLevel src else 2

/-- DEADLINE of an answer: the request's plus L, or L after the moment it is sent when that is later (R58). -/
def answerDeadline (b : Blk) (d : Dev) (p : Packet) : Nat :=
  let lv := b.levelOf d (Packet.src p)
  if expired (b.timeNs d) (Packet.deadline p) then setDeadline (b.timeNs d) (lifetime lv) else (Packet.deadline p + lifetime64 lv) % 65536

/-- An answer to a request; SEQ is assigned to a COMPLETION only (R40, R52). -/
def answerTo (b : Blk) (d : Dev) (p : Packet) (op low seq : Nat) (long : Bool) (data : List Byte) : Packet :=
  mkPacket { tc := 2, opcode := op, part := Packet.part p, keyGen := Packet.keyGen p, plane := Packet.plane p, dst := Packet.src p,
             src := Packet.dst p, ctx := Packet.ctx p, epoch := Packet.epoch p, seq := seq, tag := Packet.tag p,
             tagGen := Packet.tagGen p, deadline := b.answerDeadline d p, low := low } long data

/-- A packet of the home leaves: through the switch's queues, or out of the end point's port the request came by. -/
def homeSend (b : Blk) (d : Dev) (port : Nat) (p : Packet) : Blk :=
  match d with
  | .sw => b.internalSend srcHome p
  | .ep => b.epSend port p

/-- READ_RESP or ATOMIC_RESP: data with OK, none otherwise. -/
def sendData (b : Blk) (d : Dev) (port : Nat) (p : Packet) (st : Nat) (data : List Byte) : Blk :=
  let low := lowResponse st (Packet.cmark p) false false 0 0
  let op := if Packet.opcode p = 1 then 0x10 else 0x12
  if st ≠ 0 then b.homeSend d port (b.answerTo d p op low 0 false (zeros 1))
  else b.homeSend d port (b.answerTo d p op low 0 (decide (32 < data.length)) data)

/-- COMPLETION covering `count` sequence numbers from the request's on. DESIGN CHOICE: of the requests it joins, the first gives its DEADLINE
(R58, log 27). -/
def sendCpl (b : Blk) (d : Dev) (port : Nat) (p : Packet) (st count : Nat) : Blk :=
  b.homeSend d port (b.answerTo d p 0x11
    (lowResponse st (Packet.cmark p) (Packet.reqCplEn p == 1) (Packet.tc p == 3) count (Packet.reqTally p)) (Packet.seq p) false (zeros 1))

/-- Whether a completion may join one that is held (R54); marks must agree as well, since one CE_ECHO answers for both. DESIGN CHOICE: the
KEY_GEN of a joined COMPLETION is the first request's, whatever the others carry (R87, log 27). -/
def joins (now : Nat) (j : JoinCpl) (p : Packet) (st : Nat) : Bool :=
  j.key = Packet.stream p && j.status == st && j.tally == Packet.reqTally p && j.en == (Packet.reqCplEn p == 1)
    && Packet.cmark j.pkt == Packet.cmark p && Packet.seq p == (j.seq + j.count) % 65536 && decide (j.count < 16384)
    && decide (now < j.since + 1000)

/-- A completion made: joined to the one held for its stream, or held in its place. -/
def holdCpl (b : Blk) (d : Dev) (port : Nat) (p : Packet) (st : Nat) : Blk :=
  let j : JoinCpl := { key := Packet.stream p, seq := Packet.seq p, count := 1, status := st, tally := Packet.reqTally p,
                       en := Packet.reqCplEn p == 1, pkt := p, port := port, since := b.now d }
  match (b.home d).join.find? (fun x => x.key = j.key) with
  | none => b.modHome d (fun h => { h with join := h.join ++ [j] })
  | some o =>
    if joins (b.now d) o p st then
      b.modHome d (fun h => { h with join := h.join.map (fun x => if x.key = j.key then { x with count := x.count + 1 } else x) })
    else
      let b := b.modHome d (fun h => { h with join := (h.join.filter (fun x => !(x.key = j.key))) ++ [j] })
      b.sendCpl d o.port o.pkt o.status o.count

/-- Completions held for 1 µs are sent. -/
def flushJoin (b : Blk) (d : Dev) : Blk :=
  let due := (b.home d).join.filter (fun x => decide (x.since + 1000 ≤ b.now d))
  let b := b.modHome d (fun h => { h with join := h.join.filter (fun x => !(decide (x.since + 1000 ≤ b.now d))) })
  b.forEach due (fun b x => b.sendCpl d x.port x.pkt x.status x.count)

/-- The answer to a request with its status. -/
def reply (b : Blk) (d : Dev) (port : Nat) (p : Packet) (st : Nat) (data : List Byte) : Blk :=
  let op := Packet.opcode p
  if op = 2 ∨ op = 3 ∨ op = 0xC then b.holdCpl d port p st else b.sendData d port p st data

/-! ## Duplicate suppression (R61, R93-R95) -/

def findDs (b : Blk) (d : Dev) (key : StreamKey) (seq : Nat) : Option DsEnt :=
  (b.home d).ds.find? (fun e => decide (e.key = key) && e.seq == seq)

/-- The outcome of a request entered, or its entry completed; a new entry brings a stream record with W unset (R78). -/
def putDs (b : Blk) (d : Dev) (p : Packet) (st : Option Nat) (old : List Byte) : Blk :=
  let key := Packet.stream p
  match b.findDs d key (Packet.seq p) with
  | some _ => b.modHome d (fun h => { h with ds := h.ds.map (fun e =>
      if e.key = key ∧ e.seq = Packet.seq p then { e with status := st, old := old } else e) })
  | none =>
    let e : DsEnt := { key := key, seq := Packet.seq p, op := Packet.opcode p, status := st, old := old, at_ := b.now d }
    b.modHome d (fun h => { h with
      ds := h.ds ++ [e],
      streams := if h.streams.any (fun r => r.key = key) then h.streams else h.streams ++ [{ key := key, w := none, applied := [] }] })

def isAtomic (op : Nat) : Bool := decide (4 ≤ op) && decide (op ≤ 0xB)

/-- Bounds of a home (R92). -/
def streamLimit : Dev → Nat
  | .sw => 32768
  | .ep => 8192
def oldLimit : Dev → Nat
  | .sw => 131072
  | .ep => 32768
def topLimit : Dev → Nat
  | .sw => 16384
  | .ep => 2048

/-- Whether a request finds no free stream record or old-value slot for its entry (R95). -/
def noRoom (b : Blk) (d : Dev) (p : Packet) : Bool :=
  let h := b.home d
  (!(h.streams.any (fun r => r.key = Packet.stream p)) && decide (streamLimit d ≤ h.streams.length))
    || (isAtomic (Packet.opcode p) && decide (oldLimit d ≤ (h.ds.filter (fun e => isAtomic e.op)).length))

/-- Whether 4,096 INVALIDATEs are outstanding at the home (R124). -/
def snoopsFull (b : Blk) (d : Dev) : Bool := d == .ep && decide (4096 ≤ b.ep.snoops.length)

/-- WITHHELD of the home's counters (R542). -/
def countWithheld (b : Blk) (d : Dev) : Blk :=
  match d with
  | .sw => b.count .sw offSwHomeStat 31 0 1
  | .ep => b.count .ep offEpHomeStat 47 32 1

def countTopFull (b : Blk) (d : Dev) : Blk :=
  match d with
  | .sw => b.count .sw offSwHomeStat 63 32 1
  | .ep => b.count .ep offEpHomeStat 63 48 1

/-- Acceptance withheld until an entry ages out: a period begins and is counted once (R95). -/
def withhold (b : Blk) (d : Dev) : Blk :=
  if (b.home d).withheld then b else (b.countWithheld d).modHome d (fun h => { h with withheld := true })

/-- Acceptance withheld at the bound of INVALIDATEs: a period begins and is counted once (R124). -/
def withholdSnoop (b : Blk) (d : Dev) : Blk :=
  if (b.home d).snoopHeld then b else (b.countWithheld d).modHome d (fun h => { h with snoopHeld := true })

end Blk

/-- What the checks before a request is carried out decide. -/
inductive Gate where
  /-- Discarded, dropped, or not accepted. -/
  | stop
  /-- It found its entry. -/
  | again (e : DsEnt)
  /-- It ends with a status. -/
  | fail (status : Nat)
  | pass
  deriving DecidableEq, Repr

namespace Blk

/-- Step 1 of R84: header, DEADLINE, CHECK; on the switch also an aborted partition (R469). -/
def homeArrive (b : Blk) (d : Dev) (port : Nat) (p : Packet) : Bool × Blk :=
  match d with
  | .ep => b.arriveWhole port p (b.mine p)
  | .sw =>
    if !Packet.hcrcOk p then (false, b.count .sw (offPort .sw port 0x10) 47 32 1)
    else if Packet.malformed p then (false, (b.count .sw (offPort .sw port 0x10) 63 48 1).countDrop p)
    else if b.lateAt .sw p then (false, (b.otherDrop .sw port).countDrop p)
    else if b.pidAborted (Packet.part p) then (false, b.countDrop p)
    else if Packet.tailMarked p || !Packet.checkOk p then (false, (b.otherDrop .sw port).countDrop p)
    else (true, b)

/-- Step 3 of R84: all bytes in one window of the request's partition. -/
def windowOk (b : Blk) (d : Dev) (p : Packet) : Bool :=
  match d with
  | .sw =>
    match b.partIndex (Packet.part p) with
    | some i => b.winHolds i (Packet.offset p) (Packet.reqBytes p)
    | none => false
  | .ep =>
    match b.hwinOf (Packet.offset p) (Packet.reqBytes p) with
    | some n => b.fld .ep (offHwinCtl n) 55 44 == Packet.part p
    | none => false

/-- Whether a request passes step 1 of R84: only such a request waits where acceptance is withheld. -/
def soundAt (b : Blk) (d : Dev) (p : Packet) : Bool :=
  Packet.hcrcOk p && !Packet.malformed p && !b.lateAt d p && !Packet.tailMarked p && Packet.checkOk p
    && (match d with | .ep => b.mine p | .sw => !b.pidAborted (Packet.part p))

/-- Whether a READ of an island member may have a presence bit to record (R119): 64 B, aligned, of one line; the line and the member. -/
def presence (b : Blk) (p : Packet) : Option (Nat × Nat) :=
  if Packet.opcode p = 1 ∧ Packet.rdBytes p = 64 ∧ Packet.offset p % 64 = 0 then (b.memberOf (Packet.src p)).map (fun m => (Packet.offset p / 64, m))
  else none

/-- Whether a READ that will be served finds every way of its directory set kept for others (log 33). -/
def dirFull (b : Blk) (d : Dev) (p : Packet) : Bool :=
  d == .ep && b.windowOk .ep p && b.keyOk .ep (Packet.part p) (Packet.keyGen p)
    && (match b.presence p with | some (l, m) => (b.dirPlan l m).isNone | none => false)

/-- Acceptance of TC1 and TC3 requests at a home (R95, R124): whether a sound request waits, and the period that begins with it. -/
def awaits (b : Blk) (d : Dev) (p : Packet) : Bool × Blk :=
  if !b.soundAt d p then (false, b)
  else if (b.home d).withheld then (true, b)
  else if b.snoopsFull d then (true, b.withholdSnoop d)
  else if (b.findDs d (Packet.stream p) (Packet.seq p)).isSome then (false, b)
  else if b.noRoom d p then (true, b.withhold d)
  else (b.dirFull d p, b)

/-- Steps 1 to 5 of R84. `own` is step 3 for a request without a window, `form` step 5. -/
def gate (b : Blk) (d : Dev) (port : Nat) (p : Packet) (own form : Bool) : Gate × Blk :=
  match b.homeArrive d port p with
  | (false, b) => (.stop, b)
  | (true, b) =>
    match b.findDs d (Packet.stream p) (Packet.seq p) with
    | some e => (.again e, b)
    | none =>
      if !own then (.fail 4, b)
      else if !b.keyOk d (Packet.part p) (Packet.keyGen p) then (.fail 5, b)
      else
        let b := b.noteKey d (Packet.part p) (Packet.keyGen p)
        if !form then (.fail 0xD, b) else (.pass, b)

/-! ## Stream records (R78) -/

/-- SEQ a before SEQ c. -/
def before (a c : Nat) : Bool := let x := (c + 65536 - a % 65536) % 65536; decide (1 ≤ x) && decide (x ≤ 32767)

/-- W raised past the SEQs applied above it. -/
def advanceW : Nat → StreamRec → StreamRec
  | 0, r => r
  | fuel + 1, r =>
    match r.w with
    | none => r
    | some w =>
      let n := (w + 1) % 65536
      if r.applied.contains n then advanceW fuel { r with w := some n, applied := without r.applied n } else r

/-- A SEQ applied. -/
def recApply (r : StreamRec) (s : Nat) : StreamRec :=
  let r := { r with applied := addNew r.applied s }
  advanceW (r.applied.length + 1) r

/-- W raised to FIRST_SEQ - 1 where it is unset or below. -/
def recFirst (r : StreamRec) (first : Nat) : StreamRec :=
  let f := (first + 65535) % 65536
  let r := match r.w with
    | none => { r with w := some f }
    | some w => if before w f then { r with w := some f } else r
  let r := match r.w with
    | some w => { r with applied := r.applied.filter (fun s => before w s) }
    | none => r
  advanceW (r.applied.length + 1) r

def modStream (b : Blk) (d : Dev) (key : StreamKey) (f : StreamRec → StreamRec) : Blk :=
  b.modHome d (fun h => { h with streams := h.streams.map (fun r => if r.key = key then f r else r) })

def streamW (b : Blk) (d : Dev) (key : StreamKey) : Option Nat :=
  match (b.home d).streams.find? (fun r => r.key = key) with
  | some r => r.w
  | none => none

/-- Absolute time, in 64 ns units, of a 16-bit DEADLINE less than 2^15 units away, ahead or past. -/
def absDeadline (b : Blk) (d : Dev) (dl : Nat) : Nat :=
  let t := b.time64 d
  let x := (dl + 65536 - t % 65536) % 65536
  if x < 32768 then t + x else t + x - 65536

/-- The moment a held topcoat ends (R62). -/
def topLimitAt (b : Blk) (d : Dev) (p : Packet) : Nat :=
  b.absDeadline d (Packet.deadline p) + (if Packet.retry p = 1 then 0 else 2 * lifetime64 (b.levelOf d (Packet.src p)))

/-! ## Answers that wait (R115, R119, R120) -/

/-- A pending answer stored under the next number; one that waits for the accelerator makes its access. -/
def addPend (b : Blk) (x : PendAns) : Blk :=
  let id := b.ep.home.nextId
  let b := b.modHome .ep (fun h => { h with pend := h.pend ++ [{ x with id := id }], nextId := id + 1 })
  b.when_ x.ucie (fun b => b.emit (.ucie (.homeAccess id x.hop.writes x.hop.range.1 x.hop.range.2)))

/-- A pending answer whose waits are over: a READ that waited for a victim's sharers makes its access now; otherwise the entry is completed,
the presence bit recorded and the answer sent. -/
def finishPend (b : Blk) (id : Nat) : Blk :=
  match b.ep.home.pend.find? (fun x => x.id == id) with
  | none => b
  | some x =>
    if x.ucie || !x.snoops.isEmpty then b
    else match x.hop with
    | .done _ _ =>
      let b := b.modHome .ep (fun h => { h with pend := h.pend.filter (fun y => !(y.id == id)) })
      if x.isLocal then b.emit (.ucie (.storeDone id (x.status == 0)))
      else if x.own.isSome then (b.acqArrived (x.own.getD 0)).outcomeId (x.own.getD 0) x.status x.data
      else
        let b := b.putDs .ep x.pkt (some x.status) x.data
        let b := match x.addDir with
          | some a => if x.status = 0 then b.dirRecord a else b
          | none => b
        b.reply .ep x.port x.pkt x.status x.data
    | op =>
      let b := b.modHome .ep (fun h => { h with pend := h.pend.map (fun y => if y.id == id then { y with ucie := true } else y) })
      b.emit (.ucie (.homeAccess id op.writes op.range.1 op.range.2))

/-- A request accepted at the end point waits for the accelerator's answer, a READ that takes a victim's way first for the victim's sharers
(R115, R119). -/
def pendAnswer (b : Blk) (port : Nat) (p : Packet) (plan : Option DirPlan) : Blk :=
  let (ids, b) := match plan.bind (fun a => a.victim) with
    | some v => b.snoopLines [v]
    | none => ([], b)
  (b.putDs .ep p none []).addPend {
    id := 0, key := Packet.stream p, seq := Packet.seq p, pkt := p, port := port, status := 0, data := [], ucie := ids.isEmpty, snoops := ids,
    expire := b.absDeadline .ep (Packet.deadline p) + lifetime64 (b.levelOf .ep (Packet.src p)), isLocal := false, addDir := plan, own := none,
    hop := Packet.homeOp p }

end Blk

namespace State

/-! ## Memory of the accelerator -/

/-- Bytes of the accelerator's memory. -/
def memRead (s : State) (off n : Nat) : List Byte := (upto n).map (fun j => s.mem.get (off + j) 0#8)

/-- Bytes stored in the accelerator's memory. -/
def memWrite (s : State) (off : Nat) (bytes : List Byte) : State :=
  { s with mem := (bytes.foldl (fun (st : Tbl Byte × Nat) x => (st.1.set st.2 x 0#8, st.2 + 1)) (s.mem, off)).1 }

/-- Lines of an access that fail their check uncorrectably, now or since before. -/
def badLinesOf (s : State) (off len : Nat) (ecc : Ecc) : List Nat := (Blk.linesOf off len).filter (fun l => ecc.ue.contains l || s.b.ep.badMem.contains l)

/-- Lines of the accelerator's memory found uncorrectable, remembered until they are written whole. -/
def noteBad (s : State) (ls : List Nat) : State := { s with b := s.b.modEp (fun e => { e with badMem := ls.foldl addNew e.badMem }) }

/-- Bytes read at the end point's home; an uncorrectable line is HOME_ERROR (R69). -/
def epRead (s : State) (off len : Nat) (ecc : Ecc) : Nat × List Byte × State :=
  let bad := s.badLinesOf off len ecc
  (if bad.isEmpty then 0 else 0xC, s.memRead off len, s.noteBad bad)

/-- Whether a write from off covers a line whole. -/
def covers (off len l : Nat) : Bool := decide (off ≤ 64 * l) && decide (64 * l + 64 ≤ off + len)

/-- Bytes written at the end point's home: an uncorrectable line takes only a whole-line write (R69). -/
def epWrite (s : State) (off : Nat) (bytes : List Byte) (ecc : Ecc) : Nat × State :=
  let fail := (s.badLinesOf off bytes.length ecc).filter (fun l => !covers off bytes.length l)
  if !fail.isEmpty then (0xC, s.noteBad fail)
  else (0, { (s.memWrite off bytes) with
    b := s.b.modEp (fun e => { e with badMem := e.badMem.filter (fun l => !covers off bytes.length l) }) })

/-! ## Reads and writes at the switch's home -/

/-- Partition index of a request at the switch. -/
def fmIndex (s : State) (p : Packet) : Nat := (s.b.partIndex (Packet.part p)).getD 64

/-- What a request does to fabric memory: status and data to return (R68-R72). -/
def carry (s : State) (p : Packet) (ecc : Ecc) : Nat × List Byte × State :=
  let i := s.fmIndex p
  let pid := Packet.part p
  match Packet.homeOp p with
  | .done _ _ => (0, [], s)
  | .read off len => s.fmRead i pid off len ecc
  | .write off bytes _ => let (st, s) := s.fmWrite i pid off bytes ecc; (st, [], s)
  | .rmw off op q n opnd =>
    match s.fmRead i pid off n ecc with
    | (0, old, s) =>
      let (st, s) := s.fmWrite i pid off (leBytes n (atomicNew op q n (leNat old) (leNat opnd))) { errs := [], moved := [] }
      (st, old, s)
    | (st, _, s) => (st, [], s)

/-! ## Accesses of the end point's home -/

/-- Status with which an access to the accelerator's memory ends before it is made: HOME_ERROR where it meets an uncorrectable line (R69). -/
def epCheck (s : State) (op : HomeOp) (ecc : Ecc) : Nat × State :=
  let (off, len) := op.range
  let bad := s.badLinesOf off len ecc
  let fail := match op with
    | .write _ _ _ => bad.filter (fun l => !covers off len l)
    | _ => bad
  if fail.isEmpty then (0, s) else (0xC, s.noteBad fail)

/-- A WRITE that the accelerator answers with an error: which of its lines were written before is free, line by line, and no line is torn
(R69, log 140). The lines written. -/
def partWrite (s : State) (off : Nat) (bytes : List Byte) : List Nat × State :=
  (Blk.linesOf off bytes.length).foldl (fun (a : List Nat × State) l =>
    let s := a.2
    let (r, b) := s.b.fresh
    let s := { s with b := b }
    if Config.freeNat r % 2 = 0 then (a.1, s)
    else
      let lo := max off (64 * l)
      let hi := min (off + bytes.length) (64 * l + 64)
      (a.1 ++ [l], (s.epWrite lo ((bytes.drop (lo - off)).take (hi - lo)) { errs := [], moved := [] }).2)) ([], s)

/-- An access made once the accelerator has answered it: status, data, the lines written. -/
def perform (s : State) (op : HomeOp) (ok : Bool) : Nat × List Byte × List Nat × State :=
  let none_ : Ecc := { errs := [], moved := [] }
  match op, ok with
  | .done _ _, _ => (0, [], [], s)
  | .read off len, true => let (st, data, s) := s.epRead off len none_; (st, if st = 0 then data else [], [], s)
  | .write off bytes _, true => let (st, s) := s.epWrite off bytes none_; (st, [], if st = 0 then Blk.linesOf off bytes.length else [], s)
  | .write off bytes false, false => let (ls, s) := s.partWrite off bytes; (0xC, [], ls, s)
  | .rmw off op q n opnd, true =>
    let (st, old, s) := s.epRead off n none_
    if st ≠ 0 then (st, [], [], s)
    else
      let (st, s) := s.epWrite off (leBytes n (atomicNew op q n (leNat old) (leNat opnd))) none_
      (st, old, Blk.linesOf off n, s)
  | _, false => (0xC, [], [], s)

/-- The end of a request without an access that waits: its entry and its answer. -/
def endReq (s : State) (d : Dev) (port : Nat) (p : Packet) (st : Nat) (data : List Byte) : State :=
  { s with b := (s.b.putDs d p (some st) data).reply d port p st data }

/-- A topcoat whose turn has come (R78): the switch writes its flag; the end point makes the access that writes it. -/
def topTurn (s : State) (d : Dev) (port : Nat) (p : Packet) (ecc : Ecc) : State :=
  match d with
  | .sw =>
    let (st, _, s) := s.carry p ecc
    let s := if st = 0 then { s with b := s.b.modStream .sw (Packet.stream p) (fun r => Blk.recApply r (Packet.seq p)) } else s
    s.endReq .sw port p st []
  | .ep =>
    let (st, s) := s.epCheck (Packet.homeOp p) ecc
    if st ≠ 0 then s.endReq .ep port p st [] else { s with b := s.b.pendAnswer port p none }

/-- Held topcoats whose turn has come, one after the other (R78); at the end point the next one waits until the flag is written. -/
def releaseTop (s : State) (d : Dev) (key : StreamKey) : Nat → State
  | 0 => s
  | fuel + 1 =>
    match s.b.streamW d key with
    | none => s
    | some w =>
      match (s.b.home d).held.find? (fun h => decide (h.key = key) && h.seq == (w + 1) % 65536) with
      | none => s
      | some h =>
        let s := { s with b := s.b.modHome d (fun x => { x with held := x.held.filter (fun y => !(decide (y.key = key) && y.seq == h.seq)) }) }
        (s.topTurn d h.port h.pkt { errs := [], moved := [] }).releaseTop d key fuel

/-- A request of the stream applied: W moves, and topcoats that waited for it follow. A request that ends with a failure is not applied: DESIGN
CHOICE for one that the accelerator answers with an error (log 141). -/
def applied (s : State) (d : Dev) (key : StreamKey) (seq : Nat) : State :=
  let s := { s with b := s.b.modStream d key (fun r => Blk.recApply r seq) }
  s.releaseTop d key ((s.b.home d).held.length + 1)

/-- An access that writes a result fragment fails: the fragment counts as missing again (R232, log 145). -/
def lostFrag (b : Blk) (id : Nat) : Blk :=
  let lost := fun (m : MemChunk) => match m.writes.find? (fun w => w.1 == id) with
    | some w => { m with mask := putBits m.mask w.2 w.2 0, writes := m.writes.filter (fun w => w.1 != id) }
    | none => m
  b.modEp (fun e => { e with colls := e.colls.map (fun x => { x with chunks := x.chunks.map (fun c => (c.1, lost c.2)) }) })

/-- The accelerator's answer to an access of the home (R115): the access takes effect, written lines are invalidated at their sharers (R120),
and the answer leaves when they have acknowledged. -/
def homeAnswered (s : State) (id : Nat) (ok : Bool) : State :=
  match s.b.ep.home.pend.find? (fun x => x.id == id && x.ucie) with
  | none => s
  | some x =>
    let (st, data, lines, s) := s.perform x.hop ok
    let (ids, b) := s.b.snoopLines lines
    let b := b.modHome .ep (fun h => { h with pend := h.pend.map (fun y =>
      if y.id == id then { y with ucie := false, status := st, data := data, snoops := ids, hop := .done x.hop.range.1 x.hop.range.2 } else y) })
    let b := if st ≠ 0 ∧ x.own = some 0 then lostFrag b id else b
    let s := { s with b := b.finishPend id }
    if st = 0 ∧ x.own = none ∧ x.isLocal = false then s.applied .ep x.key x.seq else s

/-- A store of a compute engine to the end point's memory, carried by the home (R125): applied, sharers invalidated, answered when
they have acknowledged. -/
def storeLocal (s : State) (off : Nat) (bytes : List Byte) : State :=
  let s := s.memWrite off bytes
  let (ids, b) := s.b.snoopLines (Blk.linesOf off bytes.length)
  let id := b.ep.home.nextId
  let pk : Packet := { hdr := 0, payload := [], tail := 0 }
  { s with b := (b.addPend {
      id := 0, key := Packet.stream pk, seq := 0, pkt := pk, port := 0, status := 0, data := [], ucie := false, snoops := ids,
      expire := b.time64 .ep + 2 * lifetime64 0, isLocal := true, addDir := none, own := none, hop := .done off bytes.length }).finishPend id }

/-- Bytes of a request read afresh. -/
def homeRead (s : State) (d : Dev) (p : Packet) (ecc : Ecc) : Nat × List Byte × State :=
  match d with
  | .ep => s.epRead (Packet.offset p) (Packet.reqBytes p) ecc
  | .sw => s.fmRead (s.fmIndex p) (Packet.part p) (Packet.offset p) (Packet.reqBytes p) ecc

/-- The answer to a request that found its entry (R93). -/
def answerAgain (s : State) (d : Dev) (port : Nat) (p : Packet) (e : DsEnt) (ecc : Ecc) : State :=
  match e.status with
  | none => s
  | some st =>
    if e.op = 2 ∨ e.op = 3 ∨ e.op = 0xC then { s with b := s.b.sendCpl d port p st 1 }
    else if e.op = 1 ∧ st = 0 then
      let (st, data, s) := s.homeRead d p ecc
      { s with b := s.b.sendData d port p st data }
    else { s with b := s.b.sendData d port p st e.old }

/-- A memory request at a home, from arrival to answer; at the end point from arrival to the access of the accelerator's memory. -/
def serve (s : State) (d : Dev) (port : Nat) (p : Packet) (ecc : Ecc) : State :=
  match s.b.gate d port p (s.b.windowOk d p) (Packet.formOk p) with
  | (.stop, b) => { s with b := b }
  | (.again e, b) => ({ s with b := b }).answerAgain d port p e ecc
  | (.fail st, b) => ({ s with b := b }).endReq d port p st []
  | (.pass, b) =>
    let s := { s with b := b }
    match d with
    | .sw =>
      let (st, data, s) := s.carry p ecc
      let s := s.endReq .sw port p st data
      if st = 0 then s.applied .sw (Packet.stream p) (Packet.seq p) else s
    | .ep =>
      let (st, s) := s.epCheck (Packet.homeOp p) ecc
      if st ≠ 0 then s.endReq .ep port p st []
      else match (s.b.presence p).bind (fun x => s.b.dirPlan x.1 x.2) with
      | some (a, b) => { s with b := b.pendAnswer port p (some a) }
      | none => { s with b := s.b.pendAnswer port p none }

/-- TOPCOAT_WRITE (R78, R79): W from FIRST_SEQ; the flag is written, held, or refused at a full table. -/
def serveTop (s : State) (d : Dev) (port : Nat) (p : Packet) (ecc : Ecc) : State :=
  match s.b.gate d port p (s.b.windowOk d p) (Packet.formOk p) with
  | (.stop, b) => { s with b := b }
  | (.again e, b) => ({ s with b := b }).answerAgain d port p e ecc
  | (.fail st, b) => ({ s with b := b }).endReq d port p st []
  | (.pass, b) =>
    let key := Packet.stream p
    let b := (b.putDs d p none []).modStream d key (fun r => Blk.recFirst r (beNat (slice p.payload 0 2)))
    let s := { s with b := b }
    let s := s.releaseTop d key ((s.b.home d).held.length + 1)
    if s.b.streamW d key = some ((Packet.seq p + 65535) % 65536) then
      let s := s.topTurn d port p ecc
      s.releaseTop d key ((s.b.home d).held.length + 1)
    else if Blk.topLimit d ≤ (s.b.home d).held.length then
      ({ s with b := s.b.countTopFull d }).endReq d port p 0xC []
    else
      let h : HeldTop := { key := key, seq := Packet.seq p, pkt := p, port := port, limit := s.b.topLimitAt d p }
      { s with b := s.b.modHome d (fun x => { x with held := x.held ++ [h] }) }

end State

namespace Blk

/-- A held topcoat ends unapplied with a status (R62, R468). -/
def dropTop (b : Blk) (d : Dev) (h : HeldTop) (st : Nat) : Blk :=
  let b := b.modHome d (fun x => { x with held := x.held.filter (fun y => !(decide (y.key = h.key) && y.seq == h.seq)) })
  (b.putDs d h.pkt (some st) []).reply d h.port h.pkt st []

/-- A held topcoat reaches its limit. -/
def topExpire (b : Blk) (d : Dev) (key : StreamKey) (seq : Nat) : Blk :=
  match (b.home d).held.find? (fun h => decide (h.key = key) && h.seq == seq) with
  | none => b
  | some h => if h.limit ≤ b.time64 d then b.dropTop d h 7 else b

/-- An entry ages out after 800 µs; a stream record without entries and held topcoats goes with it, and withheld acceptance ends
(R94, R95). -/
def dsExpire (b : Blk) (d : Dev) (key : StreamKey) (seq : Nat) : Blk :=
  match b.findDs d key seq with
  | none => b
  | some e =>
    if b.now d < e.at_ + 800000 ∨ e.status = none then b
    else b.modHome d (fun h =>
      let ds := h.ds.filter (fun x => !(decide (x.key = key) && x.seq == seq))
      let keep := ds.any (fun x => x.key = key) || h.held.any (fun x => x.key = key)
      { h with ds := ds, streams := if keep then h.streams else h.streams.filter (fun r => !(r.key = key)), withheld := false })

end Blk

namespace Packet

/-- Tally a TALLY_INC names, and its increment (R39, R74). -/
def incTally (p : Packet) : Nat := f p 95 84
def increment (p : Packet) : Nat := leNat (slice p.payload 0 4)

/-- Form of a TALLY_INC (R74): OPQ UINT32, LEN 3, an increment that is not 0, no offset bits above the tally number. -/
def incOk (p : Packet) : Bool := opq p == 2 && len p == 3 && increment p != 0 && f p 127 96 == 0

end Packet

namespace Blk

/-- TALLY_INC at a home (R74, R84): the partition of the tally's owner stands for the window; a switch has no tallies. -/
def serveInc (b : Blk) (d : Dev) (port : Nat) (p : Packet) : State → State := fun s =>
  let n := Packet.incTally p
  let own := match d with
    | .sw => true
    | .ep => b.tallyValid n && b.ctxPart (b.tallyOwner n) == Packet.part p
  let form := match d with
    | .sw => false
    | .ep => Packet.incOk p
  match b.gate d port p own form with
  | (.stop, b) => { s with b := b }
  | (.again e, b) => ({ s with b := b }).answerAgain d port p e { errs := [], moved := [] }
  | (.fail st, b) => ({ s with b := b }).endReq d port p st []
  | (.pass, b) =>
    let s := ({ s with b := b.credit n (Packet.increment p) 0 }).endReq d port p 0 []
    s.applied d (Packet.stream p) (Packet.seq p)

end Blk

/-! ## Meanings -/

/-- The memory request a command carries to a home. -/
def homePkt : Instr → Option Packet
  | .read _ _ p _ => some p
  | .write _ _ p _ => some p
  | .topcoatWrite _ _ p _ => some p
  | .fetchAdd _ _ p _ => some p
  | .swap _ _ p _ => some p
  | .compareSwap _ _ p _ => some p
  | .fetchAnd _ _ p _ => some p
  | .fetchOr _ _ p _ => some p
  | .fetchXor _ _ p _ => some p
  | .fetchMin _ _ p _ => some p
  | .fetchMax _ _ p _ => some p
  | .tallyInc _ _ p => some p
  | _ => none

/-- A command that waits before a home (R95, R119, R124, R373, R429). -/
def State.waitHome (s : State) (d : Dev) (i : Instr) : State := { s with b := s.b.modHome d (fun h => { h with waiting := h.waiting ++ [i] }) }

/-- Whether the engine of a request's lines takes no request now: it has stopped (R429), or the slot is another's (R373). -/
def Blk.engineBusy (b : Blk) (d : Dev) (p : Packet) : Bool :=
  d == .sw && !(b.calMay 72 (Packet.part p) && (Packet.opcode p == 0xC || !b.homeStopped (Packet.offset p) (Packet.reqBytes p)))

/-- A memory request `i` reaches a home that serves, with its own opcode; it waits while the home does not accept it. -/
def homeCmd (d : Dev) (port : Nat) (p : Packet) (op : Nat) (i : Instr) (s : State) (f : State → State) : Res :=
  if hasPort d port then
    .next (if !(s.b.serving d && Packet.opcode p == op) then s
      else match s.b.awaits d p with
      | (true, b) => ({ s with b := b }).waitHome d i
      | (false, b) => if b.soundAt d p && b.engineBusy d p then ({ s with b := b }).waitHome d i else f { s with b := b })
  else .fault .noSuchUnit

/-- READ (R63, R68, R84, R93, R119). -/
def execRead (d : Dev) (port : Nat) (p : Packet) (ecc : Ecc) (s : State) : Res :=
  homeCmd d port p 0x01 (.read d port p ecc) s (fun s => s.serve d port p ecc)

/-- WRITE (R63, R68, R69, R84, R120). -/
def execWrite (d : Dev) (port : Nat) (p : Packet) (ecc : Ecc) (s : State) : Res :=
  homeCmd d port p 0x02 (.write d port p ecc) s (fun s => s.serve d port p ecc)

/-- TOPCOAT_WRITE (R75, R78, R79). -/
def execTopcoatWrite (d : Dev) (port : Nat) (p : Packet) (ecc : Ecc) (s : State) : Res :=
  homeCmd d port p 0x03 (.topcoatWrite d port p ecc) s (fun s => s.serveTop d port p ecc)

/-- FETCH_ADD (R70, R71). -/
def execFetchAdd (d : Dev) (port : Nat) (p : Packet) (ecc : Ecc) (s : State) : Res :=
  homeCmd d port p 0x04 (.fetchAdd d port p ecc) s (fun s => s.serve d port p ecc)

/-- SWAP (R70). -/
def execSwap (d : Dev) (port : Nat) (p : Packet) (ecc : Ecc) (s : State) : Res :=
  homeCmd d port p 0x05 (.swap d port p ecc) s (fun s => s.serve d port p ecc)

/-- COMPARE_SWAP (R70). -/
def execCompareSwap (d : Dev) (port : Nat) (p : Packet) (ecc : Ecc) (s : State) : Res :=
  homeCmd d port p 0x06 (.compareSwap d port p ecc) s (fun s => s.serve d port p ecc)

/-- FETCH_AND (R70). -/
def execFetchAnd (d : Dev) (port : Nat) (p : Packet) (ecc : Ecc) (s : State) : Res :=
  homeCmd d port p 0x07 (.fetchAnd d port p ecc) s (fun s => s.serve d port p ecc)

/-- FETCH_OR (R70). -/
def execFetchOr (d : Dev) (port : Nat) (p : Packet) (ecc : Ecc) (s : State) : Res :=
  homeCmd d port p 0x08 (.fetchOr d port p ecc) s (fun s => s.serve d port p ecc)

/-- FETCH_XOR (R70). -/
def execFetchXor (d : Dev) (port : Nat) (p : Packet) (ecc : Ecc) (s : State) : Res :=
  homeCmd d port p 0x09 (.fetchXor d port p ecc) s (fun s => s.serve d port p ecc)

/-- FETCH_MIN (R70). -/
def execFetchMin (d : Dev) (port : Nat) (p : Packet) (ecc : Ecc) (s : State) : Res :=
  homeCmd d port p 0x0A (.fetchMin d port p ecc) s (fun s => s.serve d port p ecc)

/-- FETCH_MAX (R70). -/
def execFetchMax (d : Dev) (port : Nat) (p : Packet) (ecc : Ecc) (s : State) : Res :=
  homeCmd d port p 0x0B (.fetchMax d port p ecc) s (fun s => s.serve d port p ecc)

/-- TALLY_INC (R74, R84, R148). -/
def execTallyInc (d : Dev) (port : Nat) (p : Packet) (s : State) : Res :=
  homeCmd d port p 0x0C (.tallyInc d port p) s (fun s => s.b.serveInc d port p s)

/-- LOCAL_STORE (R125); acceptance is withheld at the bound of R124. -/
def execLocalStore (off : Nat) (bytes : List Byte) (s : State) : Res :=
  .next (if !s.b.serving .ep then s
    else if s.b.snoopsFull .ep then ({ s with b := s.b.withholdSnoop .ep }).waitHome .ep (.localStore off bytes)
    else s.storeLocal off bytes)

/-- One command that waited before a home, tried again. -/
def State.resumeHome (s : State) (i : Instr) : State :=
  Res.nextOr s (match i with
    | .read d port p ecc => execRead d port p ecc s
    | .write d port p ecc => execWrite d port p ecc s
    | .topcoatWrite d port p ecc => execTopcoatWrite d port p ecc s
    | .fetchAdd d port p ecc => execFetchAdd d port p ecc s
    | .swap d port p ecc => execSwap d port p ecc s
    | .compareSwap d port p ecc => execCompareSwap d port p ecc s
    | .fetchAnd d port p ecc => execFetchAnd d port p ecc s
    | .fetchOr d port p ecc => execFetchOr d port p ecc s
    | .fetchXor d port p ecc => execFetchXor d port p ecc s
    | .fetchMin d port p ecc => execFetchMin d port p ecc s
    | .fetchMax d port p ecc => execFetchMax d port p ecc s
    | .tallyInc d port p => execTallyInc d port p s
    | .localStore off bytes => execLocalStore off bytes s
    | _ => .next s)

/-- Everything that waits before a home tried again, in order; what still cannot be accepted waits on. -/
def State.retryHome (s : State) (d : Dev) : State :=
  (s.b.home d).waiting.foldl State.resumeHome { s with b := s.b.modHome d (fun h => { h with waiting := [] }) }

/-- A meaning that acts on the block, after which the requests before a home are tried again. -/
def State.onHome (s : State) (d : Dev) (f : Blk → Blk) : Res := .next (({ s with b := f s.b }).retryHome d)

/-- TOPCOAT_EXPIRY (R62, R80). -/
def execTopcoatExpiry (d : Dev) (k : StreamKey) (seq : Nat) (s : State) : Res := s.on (fun b => b.topExpire d k seq)

/-- DS_ENTRY_EXPIRY (R94, R95). -/
def execDsEntryExpiry (d : Dev) (k : StreamKey) (seq : Nat) (s : State) : Res := s.onHome d (fun b => b.dsExpire d k seq)

/-- COMPLETION_FLUSH (R54). -/
def execCompletionFlush (d : Dev) (s : State) : Res := s.on (fun b => b.flushJoin d)

/-- HOME_ACCESS_ANSWER (R115). -/
def execHomeAccessAnswer (id : Nat) (ok : Bool) (s : State) : Res := .next ((s.homeAnswered id ok).retryHome .ep)

end Sys2Proof.Machine
end

