-- ==== Sys2Proof/Machine/Coherence.lean ====
section
/-! DEFINITION. Coherence inside an island and the end point's tables behind it: INVALIDATE and its acknowledgement, DROP_ALL, local
stores, answers of the accelerator, island entries, home windows, node entries (R81-R83, R115-R127, R139). -/

namespace Sys2Proof.Machine

open Sys2Proof

namespace Packet

/-- Lower header of a coherence packet (R126). -/
def cohOff (p : Packet) : Nat := f p 127 84
def cohLines (p : Packet) : Nat := f p 79 74 + 1
def snoopId (p : Packet) : Nat := f p 73 58
def allPart (p : Packet) : Bool := f p 57 57 == 1

end Packet

namespace Blk

/-- A snoop that needs no acknowledgement any more: it is forgotten, acceptance withheld for it resumes (R124), and answers that waited
for it alone go out. -/
def snoopOver (b : Blk) (id : Nat) : Blk :=
  let waiting := (b.ep.home.pend.filter (fun x => x.snoops.contains id)).map (fun x => x.id)
  let b := b.modEp (fun e => { e with
    snoops := e.snoops.filter (fun x => !(x.id == id)),
    home := { e.home with
      snoopHeld := e.home.snoopHeld && decide (4096 ≤ (e.snoops.filter (fun x => !(x.id == id))).length),
      pend := e.home.pend.map (fun x => { x with snoops := without x.snoops id }) } })
  (b.forEach waiting (fun b i => b.finishPend i)).sendNextSnoop

/-- An INVALIDATE sent again 10 µs after its last send (R121). -/
def snoopAgain (b : Blk) (id : Nat) : Blk :=
  match b.ep.snoops.find? (fun x => x.id == id) with
  | some x => if x.out && decide (x.sentAt + 10000 ≤ b.now .ep) then b.sendSnoop x else b
  | none => b

/-- Acknowledgements incomplete at DEADLINE plus L: HOME_ERROR, recorded; the INVALIDATEs go on (R119, R120). A local store is answered with an
error and logged (R125, log 28). -/
def pendTimeout (b : Blk) (id : Nat) : Blk :=
  match b.ep.home.pend.find? (fun x => x.id == id) with
  | none => b
  | some x =>
    if x.snoops.isEmpty ∨ b.time64 .ep < x.expire then b
    else
      let b := b.modHome .ep (fun h => { h with pend := h.pend.filter (fun y => !(y.id == id)) })
      if x.isLocal then (b.modEp (fun e => { e with storeLog := e.storeLog ++ [(x.hop.range.1, x.hop.range.2, b.timeNs .ep)] })).emit (.ucie (.storeDone id false))
      else if x.own.isSome then b.outcomeId (x.own.getD 0) 0xC []
      else (b.putDs .ep x.pkt (some 0xC) []).reply .ep x.port x.pkt 0xC []

/-- INVALIDATE at a sharer: lines dropped, fills marked, INV_ACK with the same OFFSET, LINES and SNOOP_ID (R122). -/
def takeInvalidate (b : Blk) (port : Nat) (p : Packet) : Blk :=
  match b.arrive port p (b.mine p) with
  | (false, b) => b
  | (true, b) =>
    let b := b.fcDropBytes (Packet.src p) (Packet.cohOff p) (64 * Packet.cohLines p)
    b.epSend port (b.cohPacket 0x1A (Packet.src p) (Packet.part p) (Packet.plane p) (Packet.cohOff p) 3 (Packet.cohLines p - 1)
      (Packet.snoopId p) false)

/-- INV_ACK at the home: the presence bits it acknowledges clear; one that matches nothing is counted (R120, R122). -/
def takeInvAck (b : Blk) (port : Nat) (p : Packet) : Blk :=
  match b.arrive port p (b.mine p) with
  | (false, b) => b
  | (true, b) =>
    match b.ep.snoops.find? (fun x => x.id == Packet.snoopId p && x.node == Packet.src p && 64 * x.line == Packet.cohOff p
        && x.lines == Packet.cohLines p) with
    | none => b.count .ep offEpHomeStat 31 16 1
    | some x =>
      let b := b.forBelow x.lines (fun b i => b.clearDirBit (x.line + i) x.member)
      b.snoopOver x.id

/-- DROP_ALL at the home, accepted only from island members (R123). -/
def takeDropAll (b : Blk) (port : Nat) (p : Packet) : Blk :=
  match b.arrive port p (b.mine p) with
  | (false, b) => b
  | (true, b) =>
    match b.memberOf (Packet.src p) with
    | none => b.otherDrop .ep port
    | some m => b.forEach (b.ep.dir.filter (fun e => Packet.allPart p || b.hwinPart (64 * e.line) == Packet.part p))
        (fun b e => b.clearDirBit e.line m)

/-! ## Island entries (R117, R118) -/

/-- What a change of an entry's VALID does: the member's lines leave the far cache; on clearing, its presence bits and the
INVALIDATEs to it are gone. -/
def islandChanged (b : Blk) (n node : Nat) (nowValid : Bool) : Blk :=
  let b := b.fcDrop (fun m _ _ => m == node)
  let b := b.sendDropAll node none
  if nowValid then b
  else
    let b := b.forEach b.ep.dir (fun b e => b.clearDirBit e.line n)
    let b := b.modHome .ep (fun h => { h with pend := h.pend.map (fun x =>
      if x.addDir.any (fun a => a.member == n) then { x with addDir := none } else x) })
    b.forEach ((b.ep.snoops.filter (fun x => x.member == n)).map (fun x => x.id)) (fun b id => b.snoopOver id)

/-- A write of EP_ISLAND_n: NODE is ignored while VALID is 1 (R540); a refused VALID stays 0 and sets CFG_ERR. -/
def writeIsland (b : Blk) (n v : Nat) : Blk :=
  let o := offIsland n
  let was := b.islandValid n
  let node := if was then b.islandNode n else bits v 13 0
  let b := if bitOf v 62 then b.setFlag .ep o 62 false else b
  let b := b.setFld .ep o 13 0 node
  let want := bitOf v 63
  if want == was then b
  else if !want then (b.setFlag .ep o 63 false).islandChanged n node false
  else if node = 16383 ∨ node = b.ep.node ∨ ((upto 3).any (fun m => m != n && b.islandValid m && b.islandNode m == node)) = true then
    b.setFlag .ep o 62 true
  else (b.setFlag .ep o 63 true).islandChanged n node true

/-! ## Home windows (R81-R83) -/

/-- Whether the granules of a window overlap those of another valid one. -/
def hwinOverlap (b : Blk) (n base limit : Nat) : Bool :=
  (upto 64).any (fun m => m != n && b.hwinValid m && decide (b.fld .ep (offHwinBase m) 43 21 ≤ limit)
    && decide (base ≤ b.fld .ep (offHwinCtl m) 43 21))

/-- A write of EP_HWIN_n_CTL: LIMIT and PARTITION are ignored while VALID is 1; a refused VALID stays 0 and sets OVERLAP_ERR. -/
def writeHwinCtl (b : Blk) (n v : Nat) : Blk :=
  let o := offHwinCtl n
  let was := b.hwinValid n
  let b := if bitOf v 1 then b.setFlag .ep o 1 false else b
  let pid := bits v 55 44
  let bad := pid == 0 || pid == 0xFFF
  let b := if was then b else
    let b := b.setFld .ep o 43 21 (bits v 43 21)
    if bad then b else b.setFld .ep o 55 44 pid
  let want := bitOf v 63
  if want == was then b
  else if !want then b.setFlag .ep o 63 false
  else
    let base := b.fld .ep (offHwinBase n) 43 21
    let limit := b.fld .ep o 43 21
    if bad || decide (limit < base) || b.hwinOverlap n base limit then b.setFlag .ep o 1 true else b.setFlag .ep o 63 true

/-- A write of EP_HWIN_n_BASE, ignored while VALID is 1 (R83). -/
def writeHwinBase (b : Blk) (n v : Nat) : Blk := if b.hwinValid n then b else b.writeFields .ep (offHwinBase n) v

/-- A write of EP_NODE_n: one that sets VALID for node 16,383 is refused whole (R139). -/
def writeNode (b : Blk) (n v : Nat) : Blk := if n = 16383 ∧ bitOf v 31 = true then b else b.writeFields .ep (offNode n) v

end Blk

/-! ## Meanings -/

/-- A command at an end point that serves. -/
def epCmd (port : Nat) (s : State) (f : Blk → Blk) : Res := s.onIf (hasPort .ep port) (fun b => if b.serving .ep then f b else b)

/-- INVALIDATE_RESEND (R121). -/
def execInvalidateResend (snoop : Nat) (s : State) : Res := s.on (fun b => b.snoopAgain snoop)

/-- INVALIDATION_TIMEOUT (R119, R120). -/
def execInvalidationTimeout (id : Nat) (s : State) : Res := s.onHome .ep (fun b => b.pendTimeout id)

/-- INVALIDATE (R122). -/
def execInvalidate (port : Nat) (p : Packet) (s : State) : Res :=
  epCmd port s (fun b => if Packet.opcode p = 0x19 then b.takeInvalidate port p else b)

/-- INV_ACK (R122). -/
def execInvAck (port : Nat) (p : Packet) (s : State) : Res :=
  if hasPort .ep port then s.onHome .ep (fun b => if b.serving .ep && Packet.opcode p == 0x1A then b.takeInvAck port p else b) else .fault .noSuchUnit

/-- DROP_ALL (R123). -/
def execDropAll (port : Nat) (p : Packet) (s : State) : Res :=
  epCmd port s (fun b => if Packet.opcode p = 0x18 then b.takeDropAll port p else b)

/-- ISLAND_WRITE (R117, R118). -/
def execIslandWrite (n val : Nat) (s : State) : Res :=
  if hasIsland n then s.onHome .ep (fun b => b.hostWrite .ep (fun b => b.writeIsland n val)) else .fault .noSuchUnit

/-- HWIN_CTL_WRITE (R82, R83). -/
def execHwinCtlWrite (n val : Nat) (s : State) : Res := s.onIf (hasWindow n) (fun b => b.hostWrite .ep (fun b => b.writeHwinCtl n val))

/-- NODE_ENTRY_WRITE (R139). -/
def execNodeEntryWrite (n val : Nat) (s : State) : Res := s.onIf (hasNode n) (fun b => b.hostWrite .ep (fun b => b.writeNode n val))

end Sys2Proof.Machine
end

