-- ==== Sys2Proof/Machine/Translate.lean ====
section
/-! DEFINITION. Translation and faults of the end point: the translation cache, ATS and PRI, invalidations, fault records and parking
(R152-R161, R440). -/

namespace Sys2Proof.Machine

open Sys2Proof

namespace ProgDesc

/-! ## Fields of a descriptor (R143, R144) -/

/-- Quadword k. -/
def q (d : ProgDesc) (k : Nat) : Nat := d.qs.getD k 0

def type (d : ProgDesc) : Nat := bits (d.q 0) 63 60
def cplEn (d : ProgDesc) : Bool := bitOf (d.q 0) 59
def tally (d : ProgDesc) : Nat := bits (d.q 0) 58 47
def length (d : ProgDesc) : Nat := bits (d.q 0) 31 0
def inlined (d : ProgDesc) : Bool := bitOf (d.q 0) 32
def src (d : ProgDesc) : Nat := d.q 1
def dst (d : ProgDesc) : Nat := d.q 2
/-- CHUNK code of a CONTRIB. -/
def chunkCode (d : ProgDesc) : Nat := bits (d.q 3) 38 36
def firstChunk (d : ProgDesc) : Nat := bits (d.q 3) 58 39
def collId (d : ProgDesc) : Nat := bits (d.q 3) 15 0
def member (d : ProgDesc) : Nat := bits (d.q 3) 29 16
def planeNo (d : ProgDesc) : Nat := bits (d.q 3) 31 30
def dtype (d : ProgDesc) : Nat := bits (d.q 3) 35 32

end ProgDesc

/-- An address of a descriptor: SRC or DST, its first byte, its length; a source is read, a destination written (R153). -/
structure Side where
  dst : Bool
  va  : Nat
  len : Nat
  deriving DecidableEq, Repr

/-- The addresses of a descriptor that are translated (R152). -/
def ProgDesc.sides (d : ProgDesc) : List Side :=
  let s : Side := { dst := false, va := d.src, len := d.length }
  let t : Side := { dst := true, va := d.dst, len := if d.type = 3 then 8 else d.length }
  (match d.type with
    | 1 => [s, t]
    | 2 => if d.inlined then [t] else [s, t]
    | 3 => [t]
    | 4 => [s, t]
    | _ => []).filter (fun x => decide (x.va < 2 ^ 57) && x.len != 0)

/-- Whether an extent holds an address of its side. -/
def Extent.holds (e : Extent) (dst : Bool) (va : Nat) : Bool := e.dst == dst && decide (e.va ≤ va) && decide (va < e.va + e.size)

namespace Blk

/-! ## The fault queue (R158-R160) -/

/-- Whether a fault record can be written now: ENABLE, room, and DMA (R159, R440). -/
def fqSpace (b : Blk) : Bool :=
  let tail := b.fld .ep offFqPtr 44 32
  let head := b.fld .ep offFqPtr 12 0
  b.flag .ep offFqBase 0 && (tail + 8192 - head) % 8192 != 4096 && b.dmaOk .ep

/-- The 32 bytes of a record at a TAIL (R158). -/
def faultBytes (tail : Nat) (r : FaultRec) : List Byte :=
  leBytes 8 r.va
    ++ leBytes 8 (packBits [(14, 0), (20, r.pasid), (4, r.cause), (4, r.status), (3, r.access), (5, r.source), (4, r.epoch), (10, r.ctx)])
    ++ leBytes 8 (r.ring % 2 ^ 32)
    ++ leBytes 8 (packBits [(1, b2n (!bitOf tail 12)), (63, r.time)])

/-- A record written to the queue, then the fault interrupt (R159). -/
def faultWrite (b : Blk) (r : FaultRec) : Blk :=
  let tail := b.fld .ep offFqPtr 44 32
  let addr := b.fld .ep offFqBase 63 17 * 2 ^ 17 + 32 * (tail % 4096)
  ((b.emit (.dma .ep addr (faultBytes tail r))).setFld .ep offFqPtr 44 32 (tail + 1)).sendVector .ep 3

/-- A fault takes effect (R157, R160): with room its record is written, and the program stops FAULTED, or at the stop point of a
pre-emption, or the direct access `direct` completes; without room the context parks with it. -/
def takeFault (b : Blk) (n : Nat) (r : FaultRec) (direct : Option Nat) : Blk :=
  let st := b.ctxState n
  if b.fqSpace then
    let b := b.faultWrite r
    match direct with
    | some id => b.outcomeId id r.status []
    | none =>
      let b := b.modCtx n (fun c => { c with faulted := some r })
      if st = 2 then b.setCtxState n 4 else b
  else
    let b := b.modCtx n (fun c => { c with parked := some { record := r, prev := st, direct := direct } })
    let b := (b.setFlag .ep offFqStatus 63 true).count .ep offFqStatus 31 0 1
    let b := b.setFld .ep offFqStatus 38 32 (b.fld .ep offFqStatus 38 32 + 1)
    b.setCtxState n 5

/-- A context leaves PARKED for a state; its held direct accesses go on. -/
def unpark (b : Blk) (n st : Nat) : Blk :=
  let held := (b.ctx n).heldDirect
  let b := b.modCtx n (fun c => { c with parked := none, heldDirect := [] })
  let b := b.modEp (fun e => { e with reqs := e.reqs ++ held })
  (b.setFld .ep offFqStatus 38 32 (b.fld .ep offFqStatus 38 32 - 1)).setCtxState n st

/-- The held record of a parked context written (R161). -/
def resumeParked (b : Blk) (n : Nat) : Blk :=
  match (b.ctx n).parked with
  | none => b
  | some p =>
    if !b.fqSpace then b
    else
      let b := b.faultWrite p.record
      match p.direct with
      | some id => (b.unpark n p.prev).outcomeId id p.record.status []
      | none =>
        let b := b.modCtx n (fun c => { c with faulted := some p.record })
        b.unpark n (if p.prev = 3 then 3 else 4)

/-! ## The translation cache (R152) -/

/-- Whether an entry translates an access. -/
def Xlat.serves (x : Xlat) (pasid va : Nat) (rd wr : Bool) : Bool :=
  x.pasid == pasid && decide (x.va ≤ va) && decide (va < x.va + x.size) && (!rd || x.rd) && (!wr || x.wr)

def atcFind (b : Blk) (pasid va : Nat) (rd wr : Bool) : Option Xlat := b.ep.atc.find? (fun x => Xlat.serves x pasid va rd wr)

/-- A translation kept; a full cache gives up one, which one is free. -/
def atcAdd (b : Blk) (x : Xlat) : Blk :=
  if b.ep.atc.length < 32768 then b.modEp (fun e => { e with atc := x :: e.atc })
  else
    let (r, b) := b.fresh
    b.modEp (fun e => { e with atc := x :: e.atc.eraseIdx (Config.freeNat r % e.atc.length) })

/-! ## ATS and PRI (R153) -/

def pasidOf (b : Blk) (n : Nat) : Nat :=
  match (b.ctx n).desc with
  | some d => d.pasid
  | none => 0

def pageOf (va : Nat) : Nat := va / 4096 * 4096

/-- An ATS Translation Request sent for a page, for a direct access `req` or, with 0, for the descriptors of a context, unless one for the same
purpose is outstanding or 256 requests are. Its number is never given again (R164). -/
def atsSend (b : Blk) (n va : Nat) (rd wr : Bool) (req : Nat) : Blk :=
  let pg := pageOf va
  let same := fun x : AtsReq => x.req == req && (req != 0 || (x.ctx == n && x.va == pg && x.rd == rd && x.wr == wr))
  if b.ep.ats.any same || decide (256 ≤ b.ep.ats.length) then b
  else
    let x : AtsReq := { id := b.ep.nextAts, ctx := n, pasid := b.pasidOf n, va := pg, rd := rd, wr := wr, phase := 0, at_ := b.now .ep,
                        req := req, stale := false }
    (b.modEp (fun e => { e with ats := e.ats ++ [x], nextAts := e.nextAts + 1 })).emit (.ats x.id x.pasid pg)

/-! ## Extents (R152, R154) -/

def overlaps (a n c m : Nat) : Bool := decide (a < c + m) && decide (c < a + n)

/-- Whether an extent of a PASID was translated before an overlapping invalidation. -/
def extStale (b : Blk) (pasid : Nat) (e : Extent) : Bool :=
  b.ep.filter.any (fun f => f.pasid == pasid && overlaps e.va e.size f.va f.size && decide (e.at_ < f.at_))

/-- A descriptor of a context on chip, by ring index. -/
def descAt (b : Blk) (n ring : Nat) : Option ProgDesc := (b.ctx n).prog.find? (fun d => d.ring == ring)

def updDesc (b : Blk) (n ring : Nat) (f : ProgDesc → ProgDesc) : Blk :=
  b.modCtx n (fun c => { c with prog := c.prog.map (fun d => if d.ring == ring then f d else d) })

/-- The extent that serves an address of a descriptor, faults among them. -/
def extAt (b : Blk) (n : Nat) (d : ProgDesc) (dst : Bool) (va : Nat) : Option Extent :=
  d.ext.find? (fun e => e.holds dst va && !b.extStale (b.pasidOf n) e)

/-- The extent a translation gives a side. -/
def extOf (b : Blk) (dst : Bool) (x : Xlat) : Extent :=
  { dst := dst, va := x.va, size := x.size, fabric := x.fabric, at_ := b.ep.nextAts, fault := none }

/-- The next address of a side without an extent, behind those it has; none behind a fault or the end. -/
def nextVa (d : ProgDesc) (x : Side) : Option Nat :=
  let es := d.ext.filter (fun e => e.dst == x.dst)
  let v := es.foldl (fun a e => max a (e.va + e.size)) x.va
  if es.any (fun e => e.fault.isSome) ∨ x.va + x.len ≤ v then none else some v

/-- Extents of a side translated ahead, up to four: from the translation cache, or ATS is asked for the next one. -/
def fillSide (b : Blk) (n ring : Nat) (x : Side) : Nat → Blk
  | 0 => b
  | fuel + 1 =>
    match b.descAt n ring with
    | none => b
    | some d =>
      if 4 ≤ (d.ext.filter (fun e => e.dst == x.dst)).length then b
      else match nextVa d x with
      | none => b
      | some v =>
        match b.atcFind (b.pasidOf n) v (!x.dst) x.dst with
        | some t => (b.updDesc n ring (fun d => { d with ext := d.ext ++ [b.extOf x.dst t] })).fillSide n ring x fuel
        | none => b.atsSend n v (!x.dst) x.dst 0

/-- The addresses of a descriptor translated as far as can be (R152). -/
def fillDesc (b : Blk) (n : Nat) (d : ProgDesc) : Blk := b.forEach d.sides (fun b x => b.fillSide n d.ring x 4)

/-- The addresses of every descriptor of a context on chip translated as far as can be. -/
def fillCtx (b : Blk) (n : Nat) : Blk := b.forEach (b.ctx n).prog (fun b d => b.fillDesc n d)

/-- An address the engine has reached: extents overtaken by an invalidation go, those behind it make room, and the rest is translated ahead
(R152, R154). -/
def reachVa (b : Blk) (n ring : Nat) (dst : Bool) (va : Nat) : Blk :=
  match b.descAt n ring with
  | none => b
  | some d =>
    let ok := d.ext.filter (fun e => !b.extStale (b.pasidOf n) e)
    let ext := match ok.find? (fun e => e.holds dst va) with
      | some e => ok.filter (fun y => y.dst != dst || decide (e.va ≤ y.va))
      | none =>
        let ok := if 4 ≤ (ok.filter (fun e => e.dst == dst)).length then ok.filter (fun e => e.dst != dst) else ok
        match b.atcFind (b.pasidOf n) va (!dst) dst with
        | some t => ok ++ [b.extOf dst t]
        | none => ok
    let b := b.updDesc n ring (fun d => { d with ext := ext })
    b.fillDesc n { d with ext := ext }

/-- A fault found for a page of a context's descriptors is held with the addresses that need the page next, or are being issued (R152). -/
def holdFault (b : Blk) (a : AtsReq) (status cause : Nat) : Blk :=
  let e : Bool → Extent := fun dst => { dst := dst, va := a.va, size := 4096, fabric := 0, at_ := b.ep.nextAts, fault := some (status, cause, b.timeNs .ep) }
  b.forEach (b.ctx a.ctx).prog (fun b d => b.forEach d.sides (fun b x =>
    let here := overlaps a.va 4096 x.va x.len && (b.extAt a.ctx d x.dst (max a.va x.va)).isNone
    let next := (match nextVa d x with | some v => pageOf v == a.va | none => false)
    if x.dst == a.wr && here && (d.begun || next) then b.updDesc a.ctx d.ring (fun d => { d with ext := d.ext ++ [e x.dst] }) else b))

def atsDrop (b : Blk) (id : Nat) : Blk := b.modEp (fun e => { e with ats := e.ats.filter (fun x => !(x.id == id)) })

/-- ACCESS of a fault record (R158). -/
def Req.access (r : Req) : Nat := if 4 ≤ r.op ∧ r.op ≤ 0xB then 2 else if r.op = 1 then 0 else 1

/-- The record of a faulting request (R158). -/
def faultRecord (b : Blk) (r : Req) (status cause time : Nat) : FaultRec :=
  { va := r.va.getD 0, pasid := b.pasidOf r.ctx, cause := cause, status := status, access := Req.access r,
    source := if r.why.isProg then (b.ctx r.ctx).engine.getD 0 else 16, epoch := b.ctxEpoch r.ctx, ctx := r.ctx,
    ring := match r.why with
      | .prog ring => ring
      | .copyRead ring _ _ => ring
      | _ => 0
    time := time % 2 ^ 63 }

/-- An ATS or PRI request ends in a fault (R153, R157): a direct access takes it at once; a descriptor's is held with its address until
the engine reaches it. DESIGN CHOICE: where the queue is full and the context holds no slot, or is PARKED already, nothing parks and nothing is
recorded: the access goes on waiting and ATS is asked again (R160, log 146). -/
def atsFault (b : Blk) (a : AtsReq) (status cause : Nat) : Blk :=
  let b := b.atsDrop a.id
  if a.req = 0 then b.holdFault a status cause
  else match b.findReq a.req with
  | none => b
  | some r =>
    if b.ctxState r.ctx = 2 ∨ b.ctxState r.ctx = 3 ∨ b.ctxState r.ctx = 4 ∨ (b.ctxState r.ctx = 1 ∧ b.fqSpace = true) then
      b.takeFault r.ctx (b.faultRecord r status cause (b.timeNs .ep)) (some r.id)
    else b

/-- An ATS request sent again. -/
def atsAgain (b : Blk) (a : AtsReq) (phase : Nat) : Blk :=
  let t := b.now .ep
  (b.modEp (fun e => { e with ats := e.ats.map (fun x => if x.id == a.id then { x with phase := phase, at_ := t, stale := false } else x) })).emit
    (.ats a.id a.pasid a.va)

/-- An ATS completion (R153, R154). -/
def atsDone (b : Blk) (id : Nat) (ans : AtsAnswer) : Blk :=
  match b.ep.ats.find? (fun x => x.id == id && x.phase != 1) with
  | none => b
  | some a =>
    if a.stale then b.atsAgain a a.phase
    else
      let lacking := fun cause status => if a.phase = 2 then b.atsFault a status cause else
        let t := b.now .ep
        (b.modEp (fun e => { e with ats := e.ats.map (fun x => if x.id == id then { x with phase := 1, at_ := t } else x) })).emit
          (.pri id a.pasid a.va a.rd a.wr)
      match ans with
      | .none => lacking 0 1
      | .page va size fabric rd wr =>
        if (a.rd && !rd) || (a.wr && !wr) then lacking 3 2
        else
          let b := (b.atsDrop id).atcAdd { pasid := a.pasid, va := va, size := size, fabric := fabric, rd := rd, wr := wr, at_ := b.now .ep }
          if a.req = 0 then b.fillCtx a.ctx else b

/-- A PRG Response (R153). -/
def prgDone (b : Blk) (id : Nat) (success : Bool) : Blk :=
  match b.ep.ats.find? (fun x => x.id == id && x.phase == 1) with
  | none => b
  | some a => if success then b.atsAgain a 2 else b.atsFault a 1 1

/-- No answer for 50 ms (R153). -/
def atsLate (b : Blk) (id : Nat) : Blk :=
  match b.ep.ats.find? (fun x => x.id == id) with
  | none => b
  | some a => if a.at_ + 50000000 ≤ b.now .ep then b.atsFault a 1 2 else b

/-! ## Invalidation (R154-R156) -/

/-- Extents of a PASID on chip. -/
def extentsOf (b : Blk) (pasid : Nat) : List Extent :=
  (b.ep.ctxs.filter (fun c => b.pasidOf c.1 == pasid)).flatMap (fun c => c.2.prog.flatMap (fun d => d.ext))

/-- Filter entries that some extent of their PASID is older than are kept (R154). -/
def filterClean (b : Blk) : Blk :=
  b.modEp (fun e => { e with filter := e.filter.filter (fun f => (b.extentsOf f.pasid).any (fun x => decide (x.at_ < f.at_))) })

/-- The entries of a PASID made one that covers all of it. -/
def mergePasid (l : List InvFilter) (pasid at_ : Nat) : List InvFilter :=
  l.filter (fun f => f.pasid != pasid) ++ [{ pasid := pasid, va := 0, size := 2 ^ 64, at_ := at_ }]

/-- An invalidation recorded in the filter of 64 entries; in a full one it covers its whole PASID. DESIGN CHOICE: where the full filter holds no
entry of that PASID, two entries of another PASID become one that covers all of that PASID; with 64 slots one such PASID exists whenever the
new one has extents (log 41). -/
def recordInv (l : List InvFilter) (f : InvFilter) : List InvFilter :=
  if l.length < 64 then l ++ [f]
  else if l.any (fun x => x.pasid == f.pasid) then mergePasid l f.pasid f.at_
  else match l.find? (fun x => decide (2 ≤ (l.filter (fun y => y.pasid == x.pasid)).length)) with
  | some x => mergePasid (mergePasid l x.pasid ((l.filter (fun y => y.pasid == x.pasid)).foldl (fun a y => max a y.at_) 0)) f.pasid f.at_
  | none => l

/-- An ATS Invalidate Request (R154): the cache entries it overlaps go, it is recorded, overlapping translations under way are asked again, and
requests sent under an extent it overlaps are counted. -/
def invalidateAts (b : Blk) (itag pasid va size : Nat) : Blk :=
  let b := b.filterClean
  let hit := fun (r : Req) => r.sent && b.pasidOf r.ctx == pasid && r.ext.any (fun x => overlaps x.1 x.2 va size)
  let counted := (b.ep.reqs.filter hit).map (fun r => r.id)
  let t := b.now .ep
  let no := b.ep.nextAts + 1
  (b.modEp (fun e => { e with
    nextAts := no,
    atc := e.atc.filter (fun x => !(x.pasid == pasid && overlaps x.va x.size va size)),
    filter := recordInv e.filter { pasid := pasid, va := va, size := size, at_ := no },
    ats := e.ats.map (fun x => if x.pasid == pasid && overlaps x.va 4096 va size then { x with stale := true } else x),
    reqs := e.reqs.map (fun r => if hit r then { r with counted := true } else r),
    invs := e.invs ++ [{ itag := itag, at_ := t, counted := counted }] })).filterClean

/-- Invalidate Completion: every counted request has its outcome, or L and 10 µs have passed (R156). -/
def completeInv (b : Blk) (itag : Nat) : Blk :=
  match b.ep.invs.find? (fun x => x.itag == itag) with
  | none => b
  | some x =>
    let l := x.counted.foldl (fun a id => match b.findReq id with
      | some r => max a (lifetime r.life)
      | none => a) 0
    if x.counted.isEmpty ∨ x.at_ + l + 10000 ≤ b.now .ep then
      ((b.modEp (fun e => { e with invs := e.invs.filter (fun y => !(y.itag == itag)) })).filterClean).emit (.invalidateDone itag)
    else b

/-- RESUME written (R161): lowest context first, while space remains. -/
def resumeFaults (b : Blk) : Blk := b.forEach ((b.ep.ctxs.filter (fun e => e.2.parked.isSome)).map (fun e => e.1)) (fun b n => b.resumeParked n)

end Blk

/-! ## Meanings -/

/-- ATS_COMPLETION (R153). -/
def execAtsCompletion (id : Nat) (a : AtsAnswer) (s : State) : Res := s.on (fun b => b.atsDone id a)

/-- PRG_RESPONSE (R153). -/
def execPrgResponse (id : Nat) (success : Bool) (s : State) : Res := s.on (fun b => b.prgDone id success)

/-- ATS_PRI_TIMEOUT (R153). -/
def execAtsPriTimeout (id : Nat) (s : State) : Res := s.on (fun b => b.atsLate id)

/-- FQ_RESUME (R161). -/
def execFqResume (s : State) : Res := s.on (fun b => b.hostWrite .ep (fun b => b.resumeFaults))

/-- ATS_INVALIDATE (R154). -/
def execAtsInvalidate (itag pasid va size : Nat) (s : State) : Res := s.on (fun b => b.invalidateAts itag pasid va size)

/-- INVALIDATE_COMPLETION (R156). -/
def execInvalidateCompletion (itag : Nat) (s : State) : Res := s.on (fun b => b.completeInv itag)

end Sys2Proof.Machine
end

