-- ==== Sys2Proof/Machine/Issue.lean ====
section
/-! DEFINITION. Requests of the end point up to their sending: direct accesses and ordering requests from UCIe, checks before issue,
issue itself, and accesses to the end point's own node (R26, R27, R33, R52, R53, R58, R63-R67, R76, R77, R87, R89, R90, R97-R99,
R105-R109, R120, R132, R138, R140, R144, R152, R157, R280). -/

namespace Sys2Proof.Machine

open Sys2Proof

/-- A request before any field is filled in. -/
def Req.blank : Req :=
  { id := 0, ctx := 0, why := .atomic 0, op := 1, tc := 1, va := none, wr := false, rd := false, node := 0, off := 0, opq := 0,
    rdBytes := 0, payload := [], long := false, cplEn := false, tally := 0, feeds := [], got := [], sent := false, epoch := 0,
    seq := 0, order := 0, tag := none, tagGen := 0, keyGen := 0, plane := 0, first := 0, life := 0, retry := 0, checkBad := false,
    counted := false, noInstall := false, ext := none, issued := 0, size_ := 0 }

/-- Sizes of direct loads and stores (R66). -/
def directSize (n : Nat) : Bool := n == 1 || n == 2 || n == 4 || n == 8 || n == 16 || n == 32 || n == 64

/-- Whether an atomic's opcode, OPQ, operand bytes and alignment fit R70. -/
def atomicForm (op q n off : Nat) : Bool :=
  let sz : Nat := match q with
    | 0 => 4 | 1 => 8 | 2 => 4 | 3 => 8 | 4 => 4 | _ => 16
  if op = 4 then decide (q ≤ 4) && n == sz && off % sz == 0
  else if op = 6 then (q == 1 || q == 3 || q == 5) && n == 2 * sz && off % sz == 0
  else if op = 5 ∨ (7 ≤ op ∧ op ≤ 0xB) then decide (q ≤ 3) && n == sz && off % sz == 0
  else false

/-- Whether the range of an acquire fits R108. -/
def rangeOk : AcqRange → Bool
  | .none => true
  | .all => true
  | .block addr k => decide (6 ≤ k) && decide (k ≤ 44) && addr % 2 ^ k == 0 && decide (addr < 2 ^ 58)

namespace Blk

/-! ## Arrival of direct accesses (R66, R129, R160) -/

/-- Whether a context accepts direct accesses and ordering requests. -/
def accepts (b : Blk) (n : Nat) : Bool := decide (2 ≤ b.ctxState n) && decide (b.ctxState n ≤ 5)

/-- Status of an access that names a context: ABORTED where the context aborts or is aborted, UNSUPPORTED where it is not resident, OK else
(R11, R12, R129, log 122). DESIGN CHOICE: an ordering request is treated as a direct access (R105). -/
def ctxStatus (b : Blk) (n : Nat) : Nat := if b.accepts n then 0 else if 6 ≤ b.ctxState n then 8 else 0xD

/-- Whether the hold of a parked context is full: the access waits outside. -/
def holdFull (b : Blk) (n : Nat) : Bool := b.ctxState n == 5 && decide (64 ≤ (b.ctx n).heldDirect.length)

/-- A request with the next number, in the order of arrival. -/
def newReq (b : Blk) (r : Req) : Req × Blk :=
  let id := b.ep.nextReq
  ({ r with id := id, order := id, epoch := b.ctxEpoch r.ctx }, b.modEp (fun e => { e with nextReq := id + 1 }))

/-- A request waits to be issued; in a parked context it is held. -/
def putReq (b : Blk) (r : Req) : Blk :=
  if b.ctxState r.ctx = 5 then b.modCtx r.ctx (fun c => { c with heldDirect := c.heldDirect ++ [r] })
  else b.modEp (fun e => { e with reqs := e.reqs ++ [r] })

/-- A direct access refused with a status: a release of its context covers it (R106). -/
def refuseDirect (b : Blk) (n st : Nat) : Blk :=
  if b.accepts n then (b.modEp (fun e => { e with nextReq := e.nextReq + 1 })).noteFail n b.ep.nextReq st else b

/-! ## The far cache serves a load (R97, R98) -/

/-- The far-cache line that a load of a context hits. -/
def fcHit (b : Blk) (ctx node off : Nat) : Option FcLine :=
  b.ep.fc.find? (fun l => l.node == node && l.line == off / 64 && l.part == b.ctxPart ctx)

/-- A line that was hit is the most recently used: it stands last (R97). -/
def fcTouch (b : Blk) (x : FcLine) : Blk := b.modEp (fun e => { e with fc := e.fc.filter (fun l => decide (l ≠ x)) ++ [x] })

/-! ## Checks before issue (R33, R65, R90, R132, R140) -/

/-- Whether a window of a context grants bytes of a node. -/
def granted (b : Blk) (n node off len : Nat) : Bool :=
  match (b.ctx n).desc with
  | none => false
  | some d => d.windows.any (fun w => decide (w.nodeLo ≤ node) && decide (node ≤ w.nodeHi) && decide (w.base ≤ off / 4096)
      && decide ((off + len - 1) / 4096 ≤ w.limit))

/-- Whether a node lies in the node range of a window (R132, a SIGNAL). -/
def grantedNode (b : Blk) (n node : Nat) : Bool :=
  match (b.ctx n).desc with
  | none => false
  | some d => d.windows.any (fun w => decide (w.nodeLo ≤ node) && decide (node ≤ w.nodeHi))

/-- Planes usable for a context and a destination, lowest first. -/
def usablePlanes (b : Blk) (n node : Nat) : List Nat :=
  match (b.ctx n).desc with
  | none => []
  | some d => if b.nodeValid node then (upto 4).filter (fun p => bitOf d.planeMask p && bitOf (b.nodeRoute node) p && b.portUp .ep p) else []

end Blk

/-- Bytes of memory a request addresses: read, written or operated on. -/
def Req.span (r : Req) : Nat :=
  if r.op = 1 then r.rdBytes
  else if r.op = 2 ∨ r.op = 3 then r.size_
  else if r.op = 6 then r.payload.length / 2
  else r.payload.length

namespace Blk

/-- Status of the checks of a request against window, size and form (R27 step 2, R33, R65, R132, R144); OK where nothing speaks against
it. -/
def checkStatus (b : Blk) (r : Req) (upper : Bool) : Nat :=
  let grant := if r.op = 0xC then b.grantedNode r.ctx r.node
    else decide (r.off + r.span ≤ 2 ^ 44) && b.granted r.ctx r.node r.off r.span
  let foreign := match r.why with
    | .copyRead _ _ _ => r.opq == 1 && r.node != b.ep.node
    | _ => false
  firstStatus [if upper || foreign then 0xD else 0, if grant then 0 else 3]

/-- Status with which a request ends before it is sent; OK where nothing speaks against it (R12, R33, R65, R76, R90, R140). Without a current
key the request stalls before a plane is looked for. -/
def preStatus (b : Blk) (r : Req) (upper : Bool) : Nat :=
  let own := r.node == b.ep.node
  let quota := match (b.ctx r.ctx).desc with
    | some d => d.tagQuota
    | none => 0
  let key : StreamKey := { src := b.ep.node, ctx := r.ctx, epoch := b.ctxEpoch r.ctx, dst := r.node, tc := r.tc }
  let closed : Nat := match b.streamFind key with
    | some x => if r.op = 3 then
        (x.fails.foldl (fun (a : Nat × Nat) f => if a.1 ≤ (x.next + 65536 - f.1) % 65536 then ((x.next + 65536 - f.1) % 65536, f.2) else a) (0, 0)).2
      else 0
    | none => 0
  firstStatus [b.checkStatus r upper, if r.tagged && quota == 0 && !(own && r.why.isProg) then 0xD else 0,
    if own || (b.pidKey .ep (b.ctxPart r.ctx)).cur.isNone || !(b.usablePlanes r.ctx r.node).isEmpty then 0 else 6, closed]

/-! ## A descriptor ends early (R144, R149) -/

/-- Whether a request belongs to the descriptor at a ring index of a context. -/
def ofDesc (n ring : Nat) (r : Req) : Bool :=
  r.ctx == n && (match r.why with
    | .prog k => k == ring
    | .copyRead k _ _ => k == ring
    | _ => false)

/-- The descriptor in progress ends with a status: every write not yet sent is credited with it, and nothing more of it is sent. -/
def descEnds (b : Blk) (n ring st : Nat) : Blk :=
  let mine := b.ep.reqs.filter (fun r => !r.sent && ofDesc n ring r)
  let b := b.modEp (fun e => { e with reqs := e.reqs.filter (fun r => r.sent || !ofDesc n ring r) })
  let b := b.forEach mine (fun b r => b.when_ r.cplEn (fun b => b.creditOwn n r.tally 1 st))
  match (b.ctx n).prog with
  | d :: _ => if d.ring = ring then b.progEnd n else b
  | [] => b

/-- A request ends before it is sent (R65, R76, R144). -/
def endsUnsent (b : Blk) (r : Req) (st : Nat) : Blk :=
  match r.why with
  | .prog ring => b.descEnds r.ctx ring st
  | .copyRead ring _ _ => b.descEnds r.ctx ring st
  | _ => b.outcome r st []

/-! ## Waits before issue -/

/-- Whether a waiting release of its own engine holds a direct access up (R106). -/
def relBlocks (b : Blk) (r : Req) : Bool :=
  match r.why.eng with
  | none => false
  | some e => b.ep.rels.any (fun x => x.ctx == r.ctx && x.eng == e && decide (x.id < r.id))

/-- Whether an earlier request of the same program must be issued first; writes that wait for their data do not hold reads up (R142,
R144). -/
def progBlocked (b : Blk) (r : Req) : Bool :=
  r.why.isProg && b.ep.reqs.any (fun x => x.ctx == r.ctx && !x.sent && x.why.isProg && decide (x.order < r.order) && x.feeds.isEmpty)

/-- Whether the state of its context lets a request be issued: a program runs on an engine while RESIDENT or PREEMPTING, up to the
forced stop point; a direct access that was accepted goes on unless its context is parked or aborted. EPOCH_WAIT stalls them all (R138). -/
def mayIssue (b : Blk) (r : Req) : Bool :=
  let st := b.ctxState r.ctx
  let c := b.ctx r.ctx
  !b.flag .ep (offCtxState r.ctx) 15 &&
    (if r.why.isProg then (st == 2 || st == 3) && c.engine.isSome && c.stop != 2 && c.faulted.isNone else decide (1 ≤ st) && decide (st ≤ 4))

/-- Credits of a class at a port not yet promised to packets that wait there (R140). -/
def freeCredits (b : Blk) (port tc : Nat) : Nat :=
  let p := b.port .ep port
  p.credits.get tc 0 - (p.tx.filter (fun t => Packet.tc t.pkt == tc && t.sent == 0)).foldl (fun a t => a + Packet.slots t.pkt) 0

/-- The usable planes in the round-robin order of a context. -/
def planeOrder (b : Blk) (n : Nat) (usable : List Nat) : List Nat := ((upto 4).map (fun i => ((b.ctx n).plane + i) % 4)).filter (fun p => usable.contains p)

/-- The plane a context's next packet takes: round-robin from the plane after the last, without those that lack credits; a context that waits
on a plane takes that one while it is usable (R140). -/
def choosePlane (b : Blk) (n : Nat) (usable : List Nat) (tc slots : Nat) : Option Nat :=
  let order := b.planeOrder n usable
  let order := match (b.ctx n).planeWait with
    | some w => if order.contains w then [w] else order
    | none => order
  order.find? (fun p => decide (slots ≤ b.freeCredits p tc))

/-- Every usable plane lacks credits: the context waits on the next one (R140). -/
def planeStall (b : Blk) (n : Nat) (usable : List Nat) : Blk :=
  let order := b.planeOrder n usable
  b.modCtx n (fun c => { c with planeWait := match c.planeWait with
    | some w => if order.contains w then some w else order.head?
    | none => order.head? })

/-- A packet of a context leaves in a plane: the next one is chosen from the plane after it. -/
def tookPlane (b : Blk) (n p : Nat) : Blk := b.modCtx n (fun c => { c with plane := (p + 1) % 4, planeWait := none })

/-- CW in force for a stream (R280). -/
def cwOf (b : Blk) (x : Stream) : Nat := if b.flag .ep offCcCfg 0 then x.cw else b.fld .ep offCcCfg 63 44

/-- Whether bounds of its stream stall a request: outstanding SEQs, topcoats, congestion window (R53, R77, R280). -/
def streamStalls (b : Blk) (x : Stream) (r : Req) : Bool :=
  decide (16384 ≤ x.out.length) || (r.op == 3 && decide (256 ≤ x.tops)) || (x.units != 0 && decide (b.cwOf x < x.units + r.units))

/-- The stream entry of a request: the one there is, a new one, or none where the quota or the table is full (R138). -/
def streamFor (b : Blk) (r : Req) : Option (Stream × Blk) :=
  let k := b.reqStream r
  match b.streamFind k with
  | some x => some (x, b)
  | none =>
    let quota := match (b.ctx r.ctx).desc with
      | some d => 64 * d.streamQuota
      | none => 0
    if quota ≤ (b.ep.streams.filter (fun x => x.key.ctx == r.ctx)).length ∨ 65536 ≤ b.ep.streams.length then none
    else
      let x : Stream := { key := k, next := 0, out := [], tops := 0, fails := [], cw := b.fld .ep offCcCfg 63 44, units := 0, lastDec := 0,
                          lastInc := b.now .ep }
      some (x, b.modEp (fun e => { e with streams := e.streams ++ [x] }))

/-- Whether a context is below its tag quota. -/
def tagRoom (b : Blk) (n : Nat) : Bool :=
  decide (b.tagsHeld n < (match (b.ctx n).desc with
    | some d => d.tagQuota
    | none => 0))

/-- Contexts stalled for a tag whose turn comes before a context's, round-robin from the context that took one last (R89). -/
def tagAhead (b : Blk) (n : Nat) : List Nat :=
  let place := fun m : Nat => (m + 2047 - b.ep.tagTurn) % 1024
  b.ep.tagWait.filter (fun m => m != n && decide (place m < place n) && b.tagRoom m
    && b.ep.reqs.any (fun r => r.ctx == m && !r.sent && r.tagged && b.mayIssue r))

/-- Whether a response tag can be taken by a context: it is free, the quota allows it, and enough are left for those before it (R89). -/
def tagFree (b : Blk) (n t : Nat) : Bool :=
  let x := b.tag t
  !x.busy && x.freeAt.isNone && !x.orphan && b.tagRoom n && decide ((b.tagAhead n).length < b.tagsLeft)

/-- A context that finds no tag left for it stalls. -/
def tagStall (b : Blk) (n : Nat) : Blk :=
  if b.tagRoom n && decide (b.tagsLeft ≤ (b.tagAhead n).length) then b.modEp (fun e => { e with tagWait := addNew e.tagWait n }) else b

/-! ## Sending (R27, R52, R58, R75, R87) -/

/-- FIRST_SEQ of a topcoat: the lowest outstanding SEQ of its stream, or its own (R75). -/
def firstSeq (x : Stream) : Nat :=
  (x.out.foldl (fun (a : Nat × Nat) s => if a.1 < (x.next + 65536 - s) % 65536 then ((x.next + 65536 - s) % 65536, s) else a) (0, x.next)).2

/-- The packet of a sent request (R36, R39, R63). -/
def reqPacket (b : Blk) (r : Req) : Packet :=
  let pl := if r.op = 1 then zeros 1 else r.payload
  mkPacket { tc := r.tc, opcode := r.op, part := b.ctxPart r.ctx, keyGen := r.keyGen, plane := r.plane, dst := r.node, src := b.ep.node,
             ctx := r.ctx, epoch := r.epoch, seq := r.seq, tag := r.tag.getD 0, tagGen := r.tagGen, retry := b2n (r.retry == 2),
             deadline := setDeadline (b.timeNs .ep) (lifetime r.life),
             low := lowRequest r.off r.opq (if r.op = 1 then r.rdBytes - 1 else 0) r.tally r.cplEn } r.long pl

/-- SEQ, tag and times given to a request; its stream, tag and context take note. -/
def numberReq (b : Blk) (x : Stream) (r : Req) (t : Nat) : Req × Blk :=
  let now := b.now .ep
  let tg := b.tag t
  let pl := if r.op = 3 then beBytes 2 (firstSeq x) ++ zeros 6 ++ r.payload else r.payload
  let r := { r with
    sent := true, epoch := b.ctxEpoch r.ctx, seq := x.next, tag := if r.tagged then some t else none, tagGen := if r.tagged then tg.gen else 0,
    keyGen := (b.pidKey .ep (b.ctxPart r.ctx)).g, first := now, life := b.nodeLevel r.node, payload := pl, issued := b.ep.nextReq }
  let b := b.modEp (fun e => { e with nextReq := e.nextReq + 1 })
  let b := b.updStream (b.reqStream r) (fun x => { x with
    next := (x.next + 1) % 65536, out := x.out ++ [r.seq], tops := if r.op = 3 then x.tops + 1 else x.tops, units := x.units + r.units })
  let b := b.when_ r.tagged (fun b => (b.setTag t { tg with busy := true, ctx := r.ctx }).modEp (fun e => { e with
    tagTurn := r.ctx, tagWait := without e.tagWait r.ctx }))
  let b := b.modCtx r.ctx (fun c => { c with epochSent := c.epochSent.insert r.epoch now })
  (r, b.updReq r.id (fun _ => r))

/-- What a write of a program sent counts for its descriptor. -/
def sentProg (b : Blk) (r : Req) (bytes : Nat) : Blk :=
  match r.why with
  | .prog ring => b.progStep r.ctx ring bytes
  | _ => b

/-- Far-cache lines a write or an atomic addresses are invalidated first (R99). -/
def dropOwn (b : Blk) (r : Req) : Blk := if 2 ≤ r.op ∧ r.op ≤ 0xB then b.fcDropBytes r.node r.off r.span else b

/-- A request leaves for another node, once its stream, tag, key, window and credits allow; whether it has left, and what a wait notes. -/
def sendOne (b : Blk) (r : Req) (t : Nat) : Bool × Blk :=
  if (b.pidKey .ep (b.ctxPart r.ctx)).cur.isNone then (false, b)
  else if r.tagged && !b.tagFree r.ctx t then (false, b.tagStall r.ctx)
  else match b.streamFor r with
  | none => (false, b.setFlag .ep (offCtxState r.ctx) 15 true)
  | some (x, b') =>
    let slots := if r.long then 3 + 16 * (r.payload.length / 256) else 4
    let usable := b.usablePlanes r.ctx r.node
    if b.streamStalls x r then (false, b)
    else match b.choosePlane r.ctx usable r.tc slots with
    | none => (false, b.planeStall r.ctx usable)
    | some p =>
      let b := (b'.dropOwn r).tookPlane r.ctx p
      let bytes := r.payload.length
      let (r, b) := b.numberReq x { r with plane := p } t
      (true, (b.sendOn .ep p (b.reqPacket r)).sentProg r bytes)

/-- The halves of a 64 B direct store: two short WRITEs of 32 B, the second one of its own number (R66). -/
def halves (b : Blk) (r : Req) (sid : Nat) : Req × Req × Blk :=
  let lo := { r with payload := r.payload.take 32, size_ := 32 }
  let (hi, b) := b.newReq { r with va := r.va.map (fun v => v + 32), payload := r.payload.drop 32, size_ := 32, off := r.off + 32 }
  let hi := { hi with order := r.order }
  (lo, hi, b.modEp (fun e => { e with
    reqs := e.reqs ++ [hi],
    rels := e.rels.map (fun x => if x.covers.contains r.id then { x with covers := addNew x.covers hi.id } else x),
    stores := e.stores.map (fun x => if x.id == sid then { x with left := 2 } else x) }))

/-- A 64 B direct store leaves as two short WRITEs with consecutive SEQ, or not yet (R66). -/
def sendHalves (b : Blk) (r : Req) (sid : Nat) : Bool × Blk :=
  let (lo, hi, b1) := b.halves r sid
  match b1.sendOne lo 0 with
  | (false, _) => (false, (b.sendOne r 0).2)
  | (true, b2) =>
    match b2.sendOne hi 0 with
    | (true, b3) => (true, b3)
    | (false, _) => (false, b)

/-- Whether an earlier write or atomic of the same context that has not been sent holds bytes of the line a load wants (R99). -/
def storeAhead (b : Blk) (r : Req) : Bool :=
  b.ep.reqs.any (fun x => x.ctx == r.ctx && !x.sent && !x.why.isProg && decide (2 ≤ x.op) && decide (x.op ≤ 0xB) && decide (x.order < r.order)
    && (match x.va with
      | none => x.node == r.node && overlaps (x.off) (max 1 x.span) (r.off / 64 * 64) 64
      | some v => overlaps v (max 1 x.span) (r.va.getD 0 / 64 * 64) 64
          || (match b.atcFind (b.pasidOf x.ctx) v x.rd x.wr with
              | some e => let a := e.fabric + (v - e.va); addrNode a == r.node && overlaps (addrOff a) (max 1 x.span) (r.off / 64 * 64) 64
              | none => false)))

/-- A load that the far cache serves (R27 step 3, R97-R100): the address is translated, its checks have passed, and no release of its engine
waits. A line that fails its check is invalidated and counted, and the load goes to the home. Whether the load was served. -/
def fcServe (b : Blk) (r : Req) (upper fcBad : Bool) : Bool × Blk :=
  if b.checkStatus r upper ≠ 0 ∨ b.storeAhead r = true then (false, b)
  else match r.why with
  | .load eng _ size true =>
    match b.fcHit r.ctx r.node r.off with
    | some l =>
      if fcBad then
        (false, (b.fcDrop (fun m k p => m == l.node && k == l.line && p == l.part)).modEp (fun e => { e with fcUe := e.fcUe + 1 }))
      else (true, (((b.fcTouch l).dropReq r.id).waitersDone r.id).answerEng r.ctx eng 0 (slice l.data (r.off % 64) size))
    | none => (false, b)
  | _ => (false, b)

/-- A fill reads the whole line that holds the bytes wanted (R98). -/
def asFill (b : Blk) (r : Req) : Req :=
  match r.why with
  | .load eng _ size true =>
    if r.node = b.ep.node then { r with why := .load eng 0 size false }
    else { r with why := .load eng (r.off % 64) size true, off := r.off / 64 * 64, rdBytes := 64 }
  | _ => r

/-- The extent that translates a waiting request: a descriptor's own (R152), or for a direct access the translation at hand (R154). -/
def extFor (b : Blk) (r : Req) (v : Nat) : Option Extent :=
  match r.why with
  | .prog ring => (b.descAt r.ctx ring).bind (fun d => b.extAt r.ctx d true v)
  | .copyRead ring _ _ => (b.descAt r.ctx ring).bind (fun d => b.extAt r.ctx d false v)
  | _ => (b.atcFind (b.pasidOf r.ctx) v r.rd r.wr).map (fun t => b.extOf r.wr t)

/-- The address of a waiting request translated: the request with its fabric address and whether bits [63:58] of it are zero; none where a
translation or a fault is waited for. -/
def translated (b : Blk) (r : Req) : Option (Req × Bool) :=
  match r.va with
  | none => some (r, false)
  | some v =>
    match b.extFor r v with
    | none => none
    | some e =>
      let a := e.fabric + (v - e.va)
      if e.fault.isSome then none
      else some ({ r with node := addrNode a, off := addrOff a, ext := some (e.va, e.size) }, decide (2 ^ 58 ≤ a))

/-- The engine has come to the address of a descriptor's request. -/
def reachReq (b : Blk) (r : Req) : Blk :=
  match r.why, r.va with
  | .prog ring, some v => b.reachVa r.ctx ring true v
  | .copyRead ring _ _, some v => b.reachVa r.ctx ring false v
  | _, _ => b

/-- A request whose address has no translation: the fault held with it takes effect, or ATS is asked (R152, R153, R157). -/
def needXlat (b : Blk) (r : Req) : Blk :=
  let v := r.va.getD 0
  if r.why.isProg then
    match (b.extFor r v).bind (fun e => e.fault) with
    | some (st, cause, time) => if b.progBlocked r || !b.mayIssue r then b else b.takeFault r.ctx (b.faultRecord r st cause time) none
    | none => b.atsSend r.ctx v r.rd r.wr 0
  else b.atsSend r.ctx v r.rd r.wr r.id

end Blk

namespace State

/-! ## Requests to the end point's own node (R120, R144, R145) -/

/-- What a request to the own node does to the accelerator's memory. -/
def ownOp (r : Req) : HomeOp :=
  if r.op = 1 then .read r.off r.rdBytes
  else if r.op = 2 then .write r.off r.payload false
  else if r.op = 3 then .write r.off (r.payload.drop 8) true
  else .rmw r.off r.op r.opq r.span r.payload

/-- A request carried out at the end point's own home: the checks of R84 that can fail, then the access, and its outcome once the
accelerator and the sharers have answered. -/
def ownRequest (s : State) (r : Req) (ecc : Ecc) : State :=
  let part := s.b.ctxPart r.ctx
  if r.op = 0xC then
    if s.b.tallyValid r.off && s.b.ctxPart (s.b.tallyOwner r.off) == part then
      { s with b := (s.b.credit r.off (leNat r.payload) 0).outcomeId r.id 0 [] }
    else { s with b := s.b.outcomeId r.id 4 [] }
  else if (match s.b.hwinOf r.off r.span with | some n => s.b.fld .ep (offHwinCtl n) 55 44 == part | none => false) then
    let (st, s) := s.epCheck (ownOp r) ecc
    if st ≠ 0 then { s with b := s.b.outcomeId r.id st [] }
    else
      let pk : Packet := { hdr := 0, payload := [], tail := 0 }
      { s with b := s.b.addPend {
          id := 0, key := s.b.reqStream r, seq := r.seq, pkt := pk, port := 0, status := 0, data := [], ucie := true, snoops := [],
          expire := s.b.time64 .ep + 2 * lifetime64 r.life, isLocal := false, addDir := none, own := some r.id, hop := ownOp r } }
  else { s with b := s.b.outcomeId r.id 4 [] }

/-- Whether an earlier request to the own node of a topcoat's stream has not been applied yet (R78). -/
def ownAhead (s : State) (r : Req) : Bool :=
  r.op == 3 && s.b.ep.home.pend.any (fun x => x.own.isSome && decide (x.key = s.b.reqStream r) && x.ucie)

/-- Source bytes of a COPY or STORE in the end point's own memory, read through its own home (R144, R149). -/
def ownSource (s : State) (r : Req) (ecc : Ecc) : State :=
  let ok := (match s.b.hwinOf r.off r.rdBytes with | some n => s.b.fld .ep (offHwinCtl n) 55 44 == s.b.ctxPart r.ctx | none => false)
  if ok then
    let (st, data, s) := s.epRead r.off r.rdBytes ecc
    { s with b := s.b.outcomeId r.id st (if st = 0 then data else []) }
  else { s with b := s.b.outcomeId r.id 4 [] }

/-- A request to the end point's own node issued: it takes its SEQ and tag and is carried out at once; a SIGNAL to the own node makes no
fabric traffic (R144). -/
def issueOwn (s : State) (r : Req) (t : Nat) (ecc : Ecc) : State :=
  match r.why with
  | .copyRead _ _ _ => s.ownSource r ecc
  | _ =>
    let b := s.b
    if r.op = 0xC then ({ s with b := b.sentProg r 0 }).ownRequest r ecc
    else
    if (b.pidKey .ep (b.ctxPart r.ctx)).cur.isNone || decide (4096 ≤ b.ep.snoops.length) || s.ownAhead r then s
    else if r.tagged && !b.tagFree r.ctx t then { s with b := b.tagStall r.ctx }
    else match b.streamFor r with
    | none => { s with b := b.setFlag .ep (offCtxState r.ctx) 15 true }
    | some (x, b) =>
      if b.streamStalls x r then s
      else
        let bytes := r.payload.length
        let (r, b) := (b.dropOwn r).numberReq x r t
        ({ s with b := b.sentProg r bytes }).ownRequest r ecc

/-- A 64 B direct store to the end point's own node: both halves, or neither yet. -/
def issueOwnStore (s : State) (r : Req) (t : Nat) (ecc : Ecc) : State :=
  match r.why with
  | .store _ sid =>
    if r.payload.length = 64 then
      let (lo, hi, b) := s.b.halves r sid
      let s' := (({ s with b := b }).issueOwn lo t ecc).issueOwn hi t ecc
      match s'.b.findReq hi.id with
      | some x => if x.sent then s' else { s with b := if (s.b.streamFor r).isNone then s.b.setFlag .ep (offCtxState r.ctx) 15 true else s.b }
      | none => s'
    else s.issueOwn r t ecc
  | _ => s.issueOwn r t ecc

/-- One attempt to issue a waiting request (R27): translation, checks, waits, sending. `fcBad` is what the far cache's check finds (R100). -/
def issue (s : State) (id t : Nat) (ecc : Ecc) (fcBad : Bool) : State :=
  match s.b.findReq id with
  | none => s
  | some r =>
    if r.sent || !s.b.mayIssue r || !r.feeds.isEmpty || s.b.relBlocks r then s
    else
    let r := { r with epoch := s.b.ctxEpoch r.ctx }
    let b := s.b.reachReq r
    match b.translated r with
    | none => { s with b := b.needXlat r }
    | some (r, upper) =>
      let b := b.updReq id (fun _ => r)
      let st := b.preStatus r upper
      if b.progBlocked r then { s with b := b }
      else match b.fcServe r upper fcBad with
      | (true, b) => { s with b := b }
      | (false, b) =>
        if st ≠ 0 then { s with b := b.endsUnsent r st } else
        let r := b.asFill r
        if r.node = b.ep.node then ({ s with b := b }).issueOwnStore r t ecc
        else match r.why with
        | .store _ sid => { s with b := (if r.payload.length = 64 then b.sendHalves r sid else b.sendOne r t).2 }
        | _ => { s with b := (b.sendOne r t).2 }

end State

namespace Blk

/-! ## Direct accesses (R66, R67, R98) -/

/-- A direct load: refused, or waiting to be issued; a load whose translation is at hand is served by the far cache at once, unless the
line it hits fails its check. A form R66 does not have is refused at the interface: its address is looked at by nobody. -/
def directLoad (b : Blk) (n eng va size : Nat) (fcBad : Bool) : Blk :=
  let st := firstStatus [b.ctxStatus n, if directSize size && va % size == 0 then 0 else 0xD]
  if st ≠ 0 then (b.refuseDirect n st).answerEng n eng st []
  else if b.holdFull n then b
  else
    let fc := match (b.ctx n).desc with
      | some d => d.fcEn
      | none => false
    let (r, b) := b.newReq { Req.blank with ctx := n, why := .load eng 0 size fc, op := 1, va := some va, rd := true, rdBytes := size, size_ := size }
    let b := b.putReq r
    if b.ctxState n = 5 || b.relBlocks r then b
    else match b.translated r with
    | none => b
    | some (r, upper) => (b.fcServe r upper fcBad).2

/-- The far-cache lines that a store or an atomic addresses go as soon as its address is known (R99). -/
def dropAtOnce (b : Blk) (r : Req) : Blk :=
  match b.translated r with
  | some (r, _) => b.dropOwn r
  | none => b

/-- A direct store (R66, R67): counted when its outcome is fixed. -/
def directStore (b : Blk) (n eng va : Nat) (bytes : List Byte) : Blk :=
  let st := firstStatus [b.ctxStatus n, if directSize bytes.length && va % bytes.length == 0 then 0 else 0xD]
  if st ≠ 0 then
    let o := offCtxErr n
    let b := b.refuseDirect n st
    (if b.flag .ep o 63 then b else b.setFld .ep o 62 59 st).setFlag .ep o 63 true
  else if b.holdFull n then b
  else
    let (r, b) := b.newReq { Req.blank with ctx := n, op := 2, va := some va, wr := true, payload := bytes, size_ := bytes.length }
    let r := { r with why := .store eng r.id }
    ((b.modEp (fun e => { e with stores := e.stores ++ [{ id := r.id, ctx := n, left := 1 }] })).putReq r).dropAtOnce r

/-- A direct atomic (R66, R70). -/
def directAtomic (b : Blk) (n eng va op opq : Nat) (operand : List Byte) : Blk :=
  let st := firstStatus [b.ctxStatus n, if atomicForm op opq operand.length va then 0 else 0xD]
  if st ≠ 0 then (b.refuseDirect n st).answerEng n eng st []
  else if b.holdFull n then b
  else
    let (r, b) := b.newReq { Req.blank with ctx := n, why := .atomic eng, op := op, va := some va, wr := true, rd := true, opq := opq,
                                            payload := operand, size_ := operand.length }
    (b.putReq r).dropAtOnce r

/-! ## Releases (R105, R106) -/

/-- Waiting releases of an engine of a context. -/
def relsOf (b : Blk) (n eng : Nat) : List Nat := (b.ep.rels.filter (fun x => x.ctx == n && x.eng == eng)).map (fun x => x.id)

/-- What a release that arrives now covers: the requests of its context that lack an outcome, sent ones and accepted direct accesses, but no
write of a program; and the waiting releases of its own engine. -/
def coverage (b : Blk) (n eng : Nat) : List Nat :=
  ((b.ep.reqs ++ (b.ctx n).heldDirect).filter (fun r => r.ctx == n && r.covered && (r.sent || !r.why.isProg))).map (fun r => r.id)
    ++ b.relsOf n eng

/-- A release waits; an ACQUIRE waits behind the releases of its engine alone. -/
def addRel (b : Blk) (n eng : Nat) (flag : Option (Nat × List Byte)) (atomic : Option (Nat × Nat × Nat × List Byte))
    (acq : Option (Scope × AcqRange)) : Blk :=
  let id := b.ep.nextReq
  let x : Rel := { id := id, ctx := n, eng := eng, covers := if acq.isSome then b.relsOf n eng else b.coverage n eng,
                   fail := if acq.isSome then none else (b.ctx n).firstFail, flag := flag, atomic := atomic, acq := acq }
  b.modEp (fun e => { e with rels := e.rels ++ [x], nextReq := id + 1 })

/-- Status of an ordering request on arrival (R12, R105): that of its context; then, where its form breaks R105, WINDOW_FAULT before
UNSUPPORTED. -/
def orderStatus (b : Blk) (n addr len : Nat) (bad : Bool) : Nat :=
  if b.ctxStatus n ≠ 0 then b.ctxStatus n
  else if bad || decide (2 ^ 58 ≤ addr) then
    firstStatus [0xD, if decide (addrOff addr + len ≤ 2 ^ 44) && b.granted n (addrNode addr) (addrOff addr) len then 0 else 3]
  else 0

/-- RELEASE. -/
def takeRelease (b : Blk) (n eng : Nat) (scope : Scope) : Blk :=
  let st := firstStatus [b.ctxStatus n, if scope == .engine then 0xD else 0]
  if st ≠ 0 then b.answerEng n eng st [] else b.addRel n eng none none none

/-- RELEASE_STORE: a refused one counts in STORE_DONE and enters the first-error record. -/
def takeRelStore (b : Blk) (n eng : Nat) (scope : Scope) (addr : Nat) (flag : List Byte) : Blk :=
  let k := flag.length
  let st := b.orderStatus n addr k (scope == .engine || !(k == 4 || k == 8) || addr % k != 0)
  if st ≠ 0 then (b.refuseDirect n st).storeDone n st else b.addRel n eng (some (addr, flag)) none none

/-- RELEASE_ATOMIC. -/
def takeRelAtomic (b : Blk) (n eng : Nat) (scope : Scope) (addr op opq : Nat) (operand : List Byte) : Blk :=
  let st := b.orderStatus n addr (if op = 6 then operand.length / 2 else operand.length) (scope == .engine || !atomicForm op opq operand.length addr)
  if st ≠ 0 then (b.refuseDirect n st).answerEng n eng st []
  else b.addRel n eng none (some (addr, op, opq, operand)) none

/-- A release whose covered requests all have their outcome (R106): it answers, or sends its flag or atomic in its own place of the
order; with a failure it sends nothing. An ACQUIRE whose releases are over invalidates and answers. -/
def relComplete (b : Blk) (id : Nat) : Blk :=
  match b.ep.rels.find? (fun x => x.id == id) with
  | none => b
  | some x =>
    if !x.covers.isEmpty || decide (b.ctxState x.ctx = 0) || decide (5 < b.ctxState x.ctx) then b
    else
      let b := b.modEp (fun e => { e with rels := e.rels.filter (fun y => !(y.id == id)) })
      let st : Nat := match x.fail with
        | some (_, s) => s
        | none => 0
      let ended := b.waitersDone id
      match x.acq, x.flag, x.atomic with
      | some (scope, range), _, _ => (ended.acquireRange x.ctx scope range).answerEng x.ctx x.eng 0 []
      | none, some (addr, bytes), _ =>
        if st ≠ 0 then ended.storeDone x.ctx st
        else b.putReq { Req.blank with id := id, order := id, ctx := x.ctx, epoch := b.ctxEpoch x.ctx, why := .relStore x.eng, op := 2,
                                       node := addrNode addr, off := addrOff addr, payload := bytes, size_ := bytes.length }
      | none, none, some (addr, op, opq, operand) =>
        if st ≠ 0 then ended.answerEng x.ctx x.eng st []
        else b.putReq { Req.blank with id := id, order := id, ctx := x.ctx, epoch := b.ctxEpoch x.ctx, why := .relAtomic x.eng, op := op,
                                       node := addrNode addr, off := addrOff addr, opq := opq, payload := operand, size_ := operand.length }
      | none, none, none => ended.answerEng x.ctx x.eng st []

/-! ## Acquires (R105, R108, R109) -/

/-- ACQUIRE_LOAD: a READ of the flag at its home. -/
def takeAcqLoad (b : Blk) (n eng : Nat) (scope : Scope) (addr size : Nat) (range : AcqRange) : Blk :=
  let st := b.orderStatus n addr size (scope == .engine || !(size == 4 || size == 8) || addr % size != 0 || !rangeOk range)
  if st ≠ 0 then (b.refuseDirect n st).answerEng n eng st []
  else if b.holdFull n then b
  else
    let (r, b) := b.newReq { Req.blank with ctx := n, why := .acqLoad eng scope range, op := 1, node := addrNode addr, off := addrOff addr,
                                            rdBytes := size, size_ := size }
    b.putReq r

/-- ACQUIRE: the range invalidated, then the answer; behind a waiting release of its engine it waits (R106). -/
def takeAcquire (b : Blk) (n eng : Nat) (scope : Scope) (range : AcqRange) : Blk :=
  let st := firstStatus [b.ctxStatus n, if scope == .engine || !rangeOk range then 0xD else 0]
  if st ≠ 0 then b.answerEng n eng st []
  else if (b.relsOf n eng).isEmpty then (b.acquireRange n scope range).answerEng n eng 0 []
  else b.addRel n eng none none (some (scope, range))

end Blk

/-! ## Meanings -/

/-- A request of the accelerator in a context. -/
def ctxCmd (n : Nat) (s : State) (f : Blk → Blk) : Res := s.onIf (hasCtx n) (fun b => if b.serving .ep then f b else b)

/-- DIRECT_LOAD (R66, R98). -/
def execDirectLoad (ctx eng va size : Nat) (fcBad : Bool) (s : State) : Res := ctxCmd ctx s (fun b => b.directLoad ctx eng va size fcBad)

/-- DIRECT_STORE (R66, R67). -/
def execDirectStore (ctx eng va : Nat) (bytes : List Byte) (s : State) : Res := ctxCmd ctx s (fun b => b.directStore ctx eng va bytes)

/-- DIRECT_ATOMIC (R66, R70). -/
def execDirectAtomic (ctx eng va opcode opq : Nat) (operand : List Byte) (s : State) : Res :=
  ctxCmd ctx s (fun b => b.directAtomic ctx eng va opcode opq operand)

/-- RELEASE (R105, R106). -/
def execRelease (ctx eng : Nat) (scope : Scope) (s : State) : Res := ctxCmd ctx s (fun b => b.takeRelease ctx eng scope)

/-- RELEASE_STORE (R105, R106). -/
def execReleaseStore (ctx eng : Nat) (scope : Scope) (addr : Nat) (flag : List Byte) (s : State) : Res :=
  ctxCmd ctx s (fun b => b.takeRelStore ctx eng scope addr flag)

/-- RELEASE_ATOMIC (R105, R106). -/
def execReleaseAtomic (ctx eng : Nat) (scope : Scope) (addr opcode opq : Nat) (operand : List Byte) (s : State) : Res :=
  ctxCmd ctx s (fun b => b.takeRelAtomic ctx eng scope addr opcode opq operand)

/-- RELEASE_COMPLETE (R106). -/
def execReleaseComplete (id : Nat) (s : State) : Res := s.on (fun b => b.relComplete id)

/-- ACQUIRE_LOAD (R105, R109). -/
def execAcquireLoad (ctx eng : Nat) (scope : Scope) (addr size : Nat) (range : AcqRange) (s : State) : Res :=
  ctxCmd ctx s (fun b => b.takeAcqLoad ctx eng scope addr size range)

/-- ACQUIRE (R105, R108). -/
def execAcquire (ctx eng : Nat) (scope : Scope) (range : AcqRange) (s : State) : Res :=
  ctxCmd ctx s (fun b => b.takeAcquire ctx eng scope range)

/-- REQUEST_ISSUE (R27, R52, R140). -/
def execRequestIssue (id tag : Nat) (ecc : Ecc) (fcBad : Bool) (s : State) : Res :=
  if hasTag tag then .next (if s.b.serving .ep then s.issue id tag ecc fcBad else s) else .fault .noSuchUnit

end Sys2Proof.Machine
end

