-- ==== Sys2Proof/Machine/Responses.lean ====
section
/-! DEFINITION. Requests in flight at the end point: retry, expiry, responses, tags and the congestion window (R54, R55, R58-R60, R87,
R89, R91, R97, R98, R140, R155, R280). -/

namespace Sys2Proof.Machine

open Sys2Proof

/-- Retry of a request: 0 none, 1 due, 2 sent, 3 never to be sent. A request to the own node is carried out at once and is not
retried; neither is one counted by an invalidation (R155). -/
def Req.mayRetry (r : Req) (own : Nat) : Bool := r.sent && r.retry == 0 && !r.counted && r.node != own

namespace Blk

/-- A retry becomes due 2L after the first issue (R59). -/
def retryDue (b : Blk) (id : Nat) : Blk :=
  match b.findReq id with
  | none => b
  | some r => if r.mayRetry b.ep.node && decide (r.first + 2 * lifetime r.life ≤ b.now .ep) then b.updReq id (fun r => { r with retry := 1 }) else b

/-- A due retry leaves before 3L, in a usable plane other than that of the first attempt where there is one, under the current
generation and with a fresh DEADLINE (R59, R87, R140). -/
def retrySend (b : Blk) (id : Nat) : Blk :=
  match b.findReq id with
  | none => b
  | some r =>
    let part := b.ctxPart r.ctx
    if r.retry ≠ 1 ∨ r.counted = true ∨ r.first + 3 * lifetime r.life ≤ b.now .ep ∨ (b.pidKey .ep part).cur.isNone = true then b
    else
      let usable := b.usablePlanes r.ctx r.node
      let other := without usable r.plane
      let slots := if r.long then 3 + 16 * (r.payload.length / 256) else 4
      match b.choosePlane r.ctx (if other.isEmpty then usable else other) r.tc slots with
      | none => b.planeStall r.ctx (if other.isEmpty then usable else other)
      | some p =>
        let b := b.dropOwn r
        let r := { r with retry := 2, plane := p, keyGen := (b.pidKey .ep part).g }
        let now := b.now .ep
        let b := (b.tookPlane r.ctx p).modCtx r.ctx (fun c => { c with epochSent := c.epochSent.insert r.epoch now })
        (b.updReq id (fun _ => r)).sendOn .ep p (b.reqPacket r)

/-- A retry that has not left by 3L is never sent (R59). -/
def retryAbandon (b : Blk) (id : Nat) : Blk :=
  match b.findReq id with
  | none => b
  | some r => if r.retry = 1 ∧ r.first + 3 * lifetime r.life ≤ b.now .ep then b.updReq id (fun r => { r with retry := 3 }) else b

/-- 4L after the first issue without a good response (R60). -/
def outcomeExpire (b : Blk) (id : Nat) : Blk :=
  match b.findReq id with
  | none => b
  | some r => if r.sent && decide (r.first + 4 * lifetime r.life ≤ b.now .ep) then b.outcome r (if r.checkBad then 0xA else 7) [] else b

/-- The tag of a retried request returns 4L after the first issue (R91). -/
def tagTimer (b : Blk) (t : Nat) : Blk :=
  let x := b.tag t
  match x.freeAt with
  | some at_ => if !x.orphan && decide (at_ ≤ b.now .ep) then b.freeTag t else b
  | none => b

/-- The request a response names by TAG and TAG_GEN (R55). -/
def tagReq (b : Blk) (p : Packet) (atomic : Bool) : Option Req :=
  b.ep.reqs.find? (fun r => r.sent && r.tag == some (Packet.tag p) && r.tagGen == Packet.tagGen p && (r.op != 1) == atomic)

/-- Whether a response carries a congestion mark (R280). -/
def marked (p : Packet) : Bool := Packet.ceEcho p == 1 || Packet.cmark p == 1

/-- READ_RESP or ATOMIC_RESP (R55, R59, R60): a stale one is discarded; a failing CHECK makes the retry due. -/
def takeResp (b : Blk) (port : Nat) (p : Packet) (atomic : Bool) : Blk :=
  match b.arrive port p (b.mine p) with
  | (false, b) => b
  | (true, b) =>
    if Packet.tailMarked p then b.otherDrop .ep port
    else match b.tagReq p atomic with
    | none => b.otherDrop .ep port
    | some r =>
      if !Packet.checkOk p then
        (b.otherDrop .ep port).updReq r.id (fun r => { r with checkBad := true, retry := if r.mayRetry b.ep.node then 1 else r.retry })
      else
        let b := b.cwMark (b.reqStream r) (marked p)
        let n := if atomic then Packet.payloadBytes p else r.rdBytes
        (b.acqArrived r.id).outcome { r with keyGen := Packet.keyGen p } (Packet.status p) (if Packet.status p = 0 then slice (Packet.wire p) 0 n else [])

/-- Stream of the requests a COMPLETION answers (R40, R55). -/
def cplStream (b : Blk) (p : Packet) : StreamKey :=
  { src := b.ep.node, ctx := Packet.ctx p, epoch := Packet.epoch p, dst := Packet.src p, tc := if Packet.reqTc3 p = 1 then 3 else 1 }

/-- COMPLETION (R54, R55): each newly covered SEQ reaches its outcome; a part covered before is ignored and counted once. -/
def takeCpl (b : Blk) (port : Nat) (p : Packet) : Blk :=
  match b.arrive port p (b.mine p) with
  | (false, b) => b
  | (true, b) =>
    let k := b.cplStream p
    let seqs := (upto (Packet.cplCount p)).map (fun i => (Packet.seq p + i) % 65536)
    let hits := seqs.filterMap (fun s => b.ep.reqs.find? (fun r => r.sent && !r.tagged && r.seq == s && decide (b.reqStream r = k)))
    let b := b.cwMark k (marked p)
    let b := b.forEach hits (fun b r => b.outcome r (Packet.status p) [])
    b.when_ (hits.length != seqs.length) (fun b => b.otherDrop .ep port)

end Blk

/-! ## Meanings -/

/-- RETRY_DUE (R59). -/
def execRetryDue (id : Nat) (s : State) : Res := s.on (fun b => b.retryDue id)

/-- RETRY_SEND (R59, R87, R140). -/
def execRetrySend (id : Nat) (s : State) : Res := s.on (fun b => if b.serving .ep then b.retrySend id else b)

/-- RETRY_ABANDON (R59). -/
def execRetryAbandon (id : Nat) (s : State) : Res := s.on (fun b => b.retryAbandon id)

/-- OUTCOME_EXPIRY (R60). -/
def execOutcomeExpiry (id : Nat) (s : State) : Res := s.on (fun b => b.outcomeExpire id)

/-- TAG_RELEASE_TIMER (R91). -/
def execTagReleaseTimer (tag : Nat) (s : State) : Res := s.onIf (hasTag tag) (fun b => b.tagTimer tag)

/-- READ_RESP (R55, R98). -/
def execReadResp (port : Nat) (p : Packet) (s : State) : Res :=
  epCmd port s (fun b => if Packet.opcode p = 0x10 then b.takeResp port p false else b)

/-- ATOMIC_RESP (R55). -/
def execAtomicResp (port : Nat) (p : Packet) (s : State) : Res :=
  epCmd port s (fun b => if Packet.opcode p = 0x12 then b.takeResp port p true else b)

/-- COMPLETION (R54, R55). -/
def execCompletion (port : Nat) (p : Packet) (s : State) : Res :=
  epCmd port s (fun b => if Packet.opcode p = 0x11 then b.takeCpl port p else b)

/-- CW_INCREASE (R280). -/
def execCwIncrease (k : StreamKey) (s : State) : Res := s.on (fun b => b.cwGrow k)

end Sys2Proof.Machine
end

