-- ==== Sys2Proof/Machine/Descriptor.lean ====
section
/-! DEFINITION. Descriptors of a program: fields, the cut of a range into requests, counts, and how a descriptor or a CONTRIB ends
(R142-R145, R149, R150, R218-R220, R446). -/

namespace Sys2Proof.Machine

open Sys2Proof

/-! ## The cut of a range (R145) -/

/-- Short pieces of [x, y), cut at each 32 B boundary: start, length, long. -/
def shortPieces : Nat → Nat → Nat → List (Nat × Nat × Bool)
  | 0, _, _ => []
  | fuel + 1, x, y =>
    if y ≤ x then []
    else
      let e := min y ((x / 32 + 1) * 32)
      (x, e - x, false) :: shortPieces fuel e y

/-- Long pieces of [x, y), cut at each 4,096 B boundary. -/
def longPieces : Nat → Nat → Nat → List (Nat × Nat × Bool)
  | 0, _, _ => []
  | fuel + 1, x, y =>
    if y ≤ x then []
    else
      let e := min y ((x / 4096 + 1) * 4096)
      (x, e - x, true) :: longPieces fuel e y

/-- The writes that cover n bytes from d on. -/
def cutWrites (d n : Nat) : List (Nat × Nat × Bool) :=
  let e := d + n
  let a := min e ((d + 255) / 256 * 256)
  let m := a + (e - a) / 256 * 256
  shortPieces 9 d a ++ longPieces ((m - a) / 4096 + 2) a m ++ shortPieces 9 m e

/-- Number of short pieces of [x, y). -/
def pieces32 (x y : Nat) : Nat := if x < y then (y + 31) / 32 - x / 32 else 0

/-- count_writes of R145. -/
def countWrites (d n : Nat) : Nat :=
  let e := d + n
  let a := min e ((d + 255) / 256 * 256)
  let m := a + (e - a) / 256 * 256
  pieces32 d a + (if a < m then (m + 4095) / 4096 - a / 4096 else 0) + pieces32 m e

/-- Count C of a descriptor (R150). -/
def ProgDesc.count (d : ProgDesc) : Nat :=
  match d.type with
  | 1 => countWrites d.dst d.length
  | 2 => countWrites d.dst d.length
  | 3 => 1
  | 4 => let c := 2 ^ (d.chunkCode + 14); (d.length + c - 1) / c
  | 6 => 1
  | _ => 0

namespace Blk

/-- Whether a descriptor may credit its tally (R143, R144). -/
def mayCredit (b : Blk) (n : Nat) (d : ProgDesc) : Bool := d.cplEn && b.owns n d.tally

/-- The whole count of a descriptor credited with a status (R149). DESIGN CHOICE: a descriptor that breaks a rule and whose count is 0 (LENGTH 0)
credits nothing and sets no ERR (log 143). -/
def creditAll (b : Blk) (n : Nat) (d : ProgDesc) (st : Nat) : Blk :=
  if b.mayCredit n d && d.count != 0 then b.credit d.tally d.count st else b

/-- The status of a descriptor on chip that an abort meets before it has begun: UNSUPPORTED where submission has found a CONTRIB whose
source and destination overlap (R218), ABORTED otherwise. -/
def abortStatus (d : ProgDesc) : Nat := if d.type = 4 ∧ overlaps d.src d.length d.dst d.length = true then 0xD else 8

/-! ## Engines (R142, R446) -/

/-- A context leaves its copy engine. -/
def leaveEngine (b : Blk) (n : Nat) : Blk :=
  match (b.ctx n).engine with
  | none => b
  | some e => ((b.modCtx n (fun c => { c with engine := none })).setFlag .ep (offCe e) 63 false).setFld .ep (offCe e) 62 53 0

/-- A context takes a copy engine. -/
def takeEngine (b : Blk) (e n : Nat) : Blk :=
  let b := b.modCtx n (fun c => { c with engine := some e, prog := match c.prog with
    | d :: r => { d with bytes := 0 } :: r
    | [] => [] })
  let b := (b.setFlag .ep (offCe e) 63 true).setFld .ep (offCe e) 62 53 n
  b.modEp (fun x => { x with engCtx := x.engCtx.insert e n })

end Blk

/-! ## Collective entries of a member (R149, R219) -/

/-- A chunk nothing has happened to. -/
def MemChunk.fresh : MemChunk :=
  { sent := false, mask := 0, carried := 0, writes := [], held := [], status := none, nacks := 0, nackFrom := none, credited := false,
    unread := false }

def CollEnt.chunk (x : CollEnt) (c : Nat) : MemChunk := x.chunks.get c MemChunk.fresh

def CollEnt.setChunk (x : CollEnt) (c : Nat) (m : MemChunk) : CollEnt := { x with chunks := x.chunks.set c m MemChunk.fresh }

/-- The CONTRIB that covers a chunk. -/
def CollEnt.descOf (x : CollEnt) (c : Nat) : Option ContribRec := x.descs.find? (fun d => decide (d.first ≤ c) && decide (c < d.first + d.count))

namespace Blk

def findColl (b : Blk) (id : Nat) : Option CollEnt := b.ep.colls.find? (fun x => x.id == id)

def updColl (b : Blk) (id : Nat) (f : CollEnt → CollEnt) : Blk :=
  b.modEp (fun e => { e with colls := mapFirst (fun x => x.id == id) f e.colls })

def dropColl (b : Blk) (id : Nat) : Blk := b.modEp (fun e => { e with colls := e.colls.filter (fun x => !(x.id == id)) })

/-- A chunk of a CONTRIB credited, once (R149). -/
def creditChunk (b : Blk) (id c st : Nat) : Blk :=
  match b.findColl id with
  | none => b
  | some x =>
    let m := x.chunk c
    if m.credited then b
    else
      let b := b.updColl id (fun x => x.setChunk c { m with credited := true })
      match x.descOf c with
      | some d => if d.cplEn then b.creditOwn x.ctx d.tally 1 st else b
      | none => b

/-- Every chunk of an entry's CONTRIBs that is not credited yet, credited with a status. -/
def creditRest (b : Blk) (id st : Nat) : Blk :=
  match b.findColl id with
  | none => b
  | some x => b.forEach x.descs (fun b d => b.forBelow d.count (fun b i => b.creditChunk id (d.first + i) st))

/-- The entry of the CONTRIB in progress of a context. -/
def collOf (b : Blk) (n : Nat) (d : ProgDesc) : Option CollEnt :=
  b.ep.colls.find? (fun x => x.ctx == n && x.plane == d.planeNo && x.collId == d.collId)

/-! ## A descriptor ends (R144, R149) -/

/-- The head descriptor of a program ends with a status: what it has not issued is credited with it. -/
def headEnds (b : Blk) (n st : Nat) : Blk :=
  match (b.ctx n).prog with
  | [] => b
  | d :: _ =>
    if !d.begun then (b.creditAll n d st).progEnd n
    else if d.type = 4 then
      let b := match b.collOf n d with
        | none => b
        | some x =>
          let b := b.forBelow d.count (fun b i => if (x.chunk (d.firstChunk + i)).sent then b else b.creditChunk x.id (d.firstChunk + i) st)
          b.updColl x.id (fun x => { x with toSend := x.toSend.filter (fun e => decide (e.1 < d.firstChunk)) })
      b.progEnd n
    else b.descEnds n d.ring st

end Blk

end Sys2Proof.Machine
end

