-- ==== Sys2Proof/Machine/Contexts.lean ====
section
/-! DEFINITION. Contexts of the end point: activation, residency, pre-emption, resume, abort and release (R56, R129-R138, R141,
R157-R167, R472, R474). -/

namespace Sys2Proof.Machine

open Sys2Proof

/-! ## The context descriptor (R130, R131) -/

/-- The windows a context descriptor grants. -/
def descWindows (l : List Byte) : List Win :=
  (upto 8).filterMap (fun i =>
    let a := leAt l (64 + 16 * i) 8
    let b := leAt l (72 + 16 * i) 8
    if bitOf a 63 then some { nodeLo := bits a 59 46, nodeHi := bits a 45 32, base := bits b 31 0, limit := bits b 63 32 } else none)

/-- A context descriptor read from host memory. -/
def parseDesc (l : List Byte) : CtxDesc :=
  let q0 := leAt l 0 8
  let q1 := leAt l 8 8
  { tagQuota := bits q0 51 38, fcEn := bitOf q0 36, planeMask := bits q0 35 32, pasid := bits q0 31 12, partition := bits q0 11 0,
    streamQuota := bits q1 29 20, ringSize := bits q1 19 16, ringOff := bits (leAt l 16 8) 43 12, engineMask := bits q1 15 0,
    windows := descWindows l }

/-- Reserved fields are 0 and no field holds a reserved value. -/
def descFieldsOk (l : List Byte) : Bool :=
  let q0 := leAt l 0 8
  let q1 := leAt l 8 8
  let q2 := leAt l 16 8
  let d := parseDesc l
  bits q0 63 52 == 0 && !bitOf q0 37 && decide (d.tagQuota ≤ 8192) && bits q1 63 30 == 0 && d.streamQuota != 0 && decide (d.ringSize ≤ 10)
    && bits q2 63 44 == 0 && bits q2 11 0 == 0 && (slice l 24 40).all (fun x => x == 0#8)
    && (upto 8).all (fun i => bits (leAt l (64 + 16 * i) 8) 62 60 == 0 && bits (leAt l (64 + 16 * i) 8) 31 0 == 0)

/-- Bytes of a context's ring. -/
def CtxDesc.ringBytes (d : CtxDesc) : Nat := 64 * 2 ^ (d.ringSize + 6)

namespace Blk

/-- Whether the ring lies in one valid window of the context's partition. -/
def ringOk (b : Blk) (d : CtxDesc) : Bool :=
  match b.hwinOf (4096 * d.ringOff) d.ringBytes with
  | some n => b.fld .ep (offHwinCtl n) 55 44 == d.partition
  | none => false

/-- Whether ACTIVATE takes a descriptor (R131). -/
def descOk (b : Blk) (l : List Byte) : Bool :=
  let d := parseDesc l
  descFieldsOk l && d.partition != 0 && d.partition != 0xFFF && d.windows.all (fun w => decide (w.nodeLo ≤ w.nodeHi) && decide (w.base ≤ w.limit))
    && (d.engineMask == 0 || b.ringOk d)

/-! ## Epochs (R56, R137, R138) -/

/-- Whether an epoch value has sent nothing for 800 µs. -/
def epochRested (b : Blk) (n e : Nat) : Bool :=
  match (b.ctx n).epochSent.find e with
  | none => true
  | some t => decide (t + 800000 ≤ b.now .ep)

/-- The epoch a context may take now: the first that qualifies, counting up from the value after the last; 0 is the first one tried. -/
def nextEpoch (b : Blk) (n : Nat) : Option Nat :=
  let first : Nat := match (b.ctx n).lastEpoch with
    | none => 0
    | some e => e + 1
  ((upto 16).map (fun i => (first + i) % 16)).find? (fun e => b.epochRested n e)

/-- Stream entries of a context freed. -/
def freeStreams (b : Blk) (n : Nat) : Blk := b.modEp (fun x => { x with streams := x.streams.filter (fun s => !(s.key.ctx == n)) })

/-- A context takes an epoch: its stream entries are freed, EPOCH_WAIT ends. -/
def takeEpoch (b : Blk) (n e : Nat) : Blk :=
  let b := (b.freeStreams n).modCtx n (fun c => { c with lastEpoch := some e, firstFail := none })
  (b.setFld .ep (offCtxState n) 7 4 e).setFlag .ep (offCtxState n) 15 false

/-- A pending ACTIVATE completes once an epoch qualifies. -/
def finishActivate (b : Blk) (n : Nat) : Blk :=
  match (b.ctx n).newDesc, b.nextEpoch n with
  | some d, some e =>
    let b := b.takeEpoch n e
    let b := b.modCtx n (fun c => { c with desc := some d, newDesc := none, saved := false, prog := [], faulted := none, parked := none,
                                           heldDirect := [], plane := 0, planeWait := none, engine := none, stop := 0 })
    let b := (b.putReg .ep (offProd n) 0).putReg .ep (offCons n) 0
    (b.setFlag .ep (offCtxState n) 14 false).setCtxState n 1
  | _, _ => b

/-- ACTIVATE (R136, R137): the descriptor is read by DMA, which waits while the host cannot be reached. -/
def activate (b : Blk) (n : Nat) (desc : Option (List Byte)) : Blk :=
  if b.ctxState n ≠ 0 ∧ b.ctxState n ≠ 7 then b.cmdErr n 1
  else match desc with
  | none => b
  | some l =>
    if !b.dmaOk .ep then b
    else if !b.descOk l then b.cmdErr n 2
    else ((b.modCtx n (fun c => { c with newDesc := some (parseDesc l) })).setFlag .ep (offCtxState n) 14 true).finishActivate n

/-- EPOCH_ROLL (R138): a context stalled for stream entries, with every outcome fixed and no failure held, takes a new epoch. -/
def epochRoll (b : Blk) (n : Nat) : Blk :=
  if !b.flag .ep (offCtxState n) 15 || b.ep.reqs.any (fun r => r.sent && r.ctx == n)
      || b.ep.streams.any (fun s => s.key.ctx == n && !s.fails.isEmpty) then b
  else match b.nextEpoch n with
  | none => b
  | some e => b.takeEpoch n e

/-! ## Residency (R133, R136) -/

/-- Whether a context holds a resident slot; one that aborts keeps its slot until its save area is written. -/
def holdsSlot (b : Blk) (n : Nat) : Bool :=
  let st := b.ctxState n
  (decide (2 ≤ st) && decide (st ≤ 5)) || (st == 6 && (b.ctx n).stop == 3)

/-- Resident slots no context holds. -/
def freeSlots (b : Blk) : List Nat :=
  (upto 64).filter (fun k => !((upto 1024).any (fun n => b.holdsSlot n && b.fld .ep (offCtxState n) 13 8 == k)))

/-- CRC-32 of a save area: over its first 60 bytes, stored little-endian in the last four (R133). -/
def saveCrc (l : List Byte) : Nat := crc 32 0x1EDC6F41 (slice l 0 60)

/-- LOAD (R133, R136): a free slot; the save area checked when the end point has written it. Which free slot is free. -/
def loadCtx (b : Blk) (n : Nat) (save : Option (List Byte)) : Blk :=
  if b.ctxState n ≠ 1 then b.cmdErr n 1
  else
    let free := b.freeSlots
    if free.isEmpty then b.cmdErr n 3
    else
      let go := fun (b : Blk) =>
        let (r, b) := b.fresh
        let b := b.setFld .ep (offCtxState n) 13 8 (free.getD (Config.freeNat r % free.length) 0)
        (b.setCtxState n (if (b.ctx n).faulted.isSome then 4 else 2)).fillCtx n
      if !(b.ctx n).saved then go b
      else match save with
      | none => b
      | some l =>
        if !b.dmaOk .ep then b
        else if leAt l 60 4 ≠ saveCrc l then b.cmdErr n 4
        else go b

/-- The save area written to host memory: its content, for which no layout is given, is free but for the CRC (R130, R133). -/
def writeSave (b : Blk) (n : Nat) : Blk :=
  let (l, b) := b.freshBytes 60
  let addr := b.fld .ep offCtxTable 63 18 * 2 ^ 18 + 256 * n + 192
  (b.emit (.dma .ep addr (l ++ leBytes 4 (saveCrc l)))).modCtx n (fun c => { c with saved := true })

/-! ## Pre-emption (R162, R163) -/

/-- PREEMPT and PREEMPT_NOW: the context runs to its stop point. -/
def preemptCtx (b : Blk) (n stop : Nat) : Blk :=
  let st := b.ctxState n
  if st = 2 ∨ st = 4 ∨ (st = 3 ∧ stop = 2) then (b.modCtx n (fun c => { c with stop := stop })).setCtxState n 3 else b.cmdErr n 1

/-- Whether a chunk of the CONTRIB in progress is partly sent (R162). -/
def chunkPartly (b : Blk) (n : Nat) (d : ProgDesc) : Bool :=
  match b.collOf n d with
  | some x => x.toSend.any (fun e => e.2 != 0)
  | none => false

/-- Whether a pre-empted program has reached its stop point: a fault; the forced stop; the end of the descriptor being issued, of the
chunk being sent, or an unmet WAIT. -/
def atStop (b : Blk) (n : Nat) : Bool :=
  let c := b.ctx n
  c.faulted.isSome || c.stop == 2 || (match c.prog with
    | [] => true
    | d :: _ => !d.begun || d.type == 5 || (d.type == 4 && !b.chunkPartly n d))

/-- PREEMPT_STOP: the save area is written, translations are discarded, the slot is released. -/
def preemptStop (b : Blk) (n : Nat) : Blk :=
  if b.ctxState n ≠ 3 ∨ b.atStop n = false ∨ b.dmaOk .ep = false then b
  else
    let b := (b.writeSave n).leaveEngine n
    let rest := match (b.ctx n).prog with
      | d :: r => (if d.type = 5 then { d with begun := false } else d) :: r
      | [] => []
    let b := b.modCtx n (fun c => { c with stop := 0, prog := rest.map (fun d => { d with ext := [] }) })
    let b := b.modEp (fun e => { e with
      colls := e.colls.map (fun x => if x.ctx == n then { x with toSend := x.toSend.map (fun t => (t.1, 0)) } else x) })
    b.setCtxState n 1

/-! ## Resume (R136) -/

/-- RESUME_RETRY: the faulting address is translated again. -/
def resumeRetry (b : Blk) (n : Nat) : Blk :=
  if b.ctxState n ≠ 4 then b.cmdErr n 1
  else
    let b := match (b.ctx n).faulted with
      | some r => b.updDesc n r.ring (fun d => { d with ext := d.ext.filter (fun e => !(e.fault.isSome && decide (e.va ≤ r.va) && decide (r.va < e.va + e.size))) })
      | none => b
    ((b.modCtx n (fun c => { c with faulted := none })).setCtxState n 2).fillCtx n

/-- RESUME_SKIP: the faulting descriptor ends with the fault's status. -/
def resumeSkip (b : Blk) (n : Nat) : Blk :=
  if b.ctxState n ≠ 4 then b.cmdErr n 1
  else
    let c := b.ctx n
    let b := b.modCtx n (fun c => { c with faulted := none })
    let b := match c.faulted, c.prog with
      | some r, d :: _ => if d.ring = r.ring then b.headEnds n r.status else b
      | _, _ => b
    b.setCtxState n 2

/-! ## Abort (R164-R167) -/

/-- The outcome ABORTED of one request; its tag is orphaned. -/
def abortReq (b : Blk) (r : Req) : Blk :=
  let b := b.dropReq r.id
  let b := match r.tag with
    | some t => b.setTag t { (b.tag t) with orphan := true }
    | none => b
  let b := b.waitersDone r.id
  match r.why with
  | .copyRead _ _ _ => b
  | _ => b.purposeDone r 8 []

/-- A waiting release answered with ABORTED. -/
def abortRel (b : Blk) (x : Rel) : Blk :=
  let b := b.modEp (fun e => { e with rels := e.rels.filter (fun y => !(y.id == x.id)) })
  if x.flag.isSome then b.storeDone x.ctx 8 else b.answerEng x.ctx x.eng 8 []

/-- Steps 1 to 4 of R164: outcomes, descriptors on chip, collectives, tags, translation requests, held records. -/
def abortCtx (b : Blk) (n why : Nat) : Blk :=
  let st := b.ctxState n
  let slot := b.holdsSlot n
  let b := b.when_ (st == 5) (fun b => b.setFld .ep offFqStatus 38 32 (b.fld .ep offFqStatus 38 32 - 1))
  let b := b.leaveEngine n
  let b := b.setCtxState n 6
  let c := b.ctx n
  let b := b.forEach ((b.ep.reqs.filter (fun r => r.ctx == n)) ++ c.heldDirect) (fun b r => b.abortReq r)
  let b := b.forEach (b.ep.rels.filter (fun x => x.ctx == n)) (fun b x => b.abortRel x)
  let b := b.forEach c.prog (fun b d => if d.begun then b else b.creditAll n d (abortStatus d))
  let old := b.ep.colls.filter (fun x => x.ctx == n)
  let b := b.forEach old (fun b x => (b.creditRest x.id 8).dropColl x.id)
  let pid := b.ctxPart n
  let b := b.modEp (fun e => { e with
    ats := e.ats.filter (fun x => !(x.ctx == n)),
    collHeld := e.collHeld.filter (fun h => !(old.any (fun x => x.plane == h.plane && x.collId == Packet.collId h.pkt) && Packet.part h.pkt == pid)),
    gone := (let l : List GoneColl := old.map (fun x => { ctx := n, plane := x.plane, collId := x.collId, part := pid })
             e.gone.filter (fun g => !l.contains g) ++ l),
    tagWait := without e.tagWait n,
    streams := e.streams.map (fun x => if x.key.ctx == n then { x with out := [], tops := 0, units := 0 } else x) })
  let b := b.modCtx n (fun c => { c with prog := [], faulted := none, parked := none, heldDirect := [], stop := if slot then 3 else 0,
                                         abortWhy := why })
  b.setFlag .ep (offCtxState n) 15 false

/-- Whether a state accepts ABORT (R136). -/
def abortable (b : Blk) (n : Nat) : Bool := decide (1 ≤ b.ctxState n) && decide (b.ctxState n ≤ 5)

/-- ABORT written to a context. -/
def cmdAbort (b : Blk) (n : Nat) : Blk := if b.abortable n then b.abortCtx n 0 else b.cmdErr n 1

/-- Every context of a partition that accepts ABORT aborted (R472); `why` is DETAIL byte 24 of R474. -/
def abortPart (b : Blk) (pid why : Nat) : Blk :=
  if pid = 0 ∨ pid = 0xFFF then b
  else b.forEach ((b.ep.ctxs.filter (fun e => b.abortable e.1 && b.ctxPart e.1 == pid)).map (fun e => e.1)) (fun b n => b.abortCtx n why)

/-- Every context that accepts ABORT aborted. -/
def abortEvery (b : Blk) (why : Nat) : Blk :=
  b.forEach ((b.ep.ctxs.filter (fun e => b.abortable e.1)).map (fun e => e.1)) (fun b n => b.abortCtx n why)

/-- Steps 5 and 6 of R164: the save area, the far cache, ABORTED, the record and the interrupt; the quarantine of orphaned tags
begins. -/
def abortDone (b : Blk) (n : Nat) (posted : Bool) : Blk :=
  if b.ctxState n ≠ 6 then b
  else
    let ok := posted && b.dmaOk .ep
    let b := if ok then b.writeSave n else b.setFlag .ep (offCtxState n) 21 true
    let b := (b.fcDropPart (b.ctxPart n)).setCtxState n 7
    let b := b.modCtx n (fun c => { c with stop := 0 })
    let b := b.errRecord .ep { cls := 2, source := 0x13, event := 0x01, action := 0, inst := n, part := b.ctxPart n,
                               detail := (b.ctx n).abortWhy + 256 * b2n (!ok) }
    let b := b.sendVector .ep 2
    let until_ := b.now .ep + 800000
    b.modEp (fun e => { e with tags := e.tags.map (fun t => if t.2.orphan && t.2.ctx == n && t.2.freeAt.isNone then (t.1, { t.2 with freeAt := some until_ }) else t) })

/-- Step 7 of R164: orphaned tags whose quarantine is over return to the pool. -/
def quarantineEnd (b : Blk) (n : Nat) : Blk :=
  let due := (b.ep.tags.filter (fun t => t.2.orphan && t.2.ctx == n && (match t.2.freeAt with | some a => decide (a ≤ b.now .ep) | none => false))).map
    (fun t => t.1)
  b.forEach due (fun b t => b.freeTag t)

/-- RELEASE (R136). Outstanding are requests that have been sent, and accepted direct accesses and releases without an answer; what a program
had queued and never sent goes with the context. -/
def releaseCtx (b : Blk) (n : Nat) : Blk :=
  let st := b.ctxState n
  if st ≠ 7 ∧ st ≠ 1 then b.cmdErr n 1
  else if st = 1 ∧ (b.ep.reqs.any (fun r => r.ctx == n && (r.sent || !r.why.isProg)) || b.ep.rels.any (fun x => x.ctx == n)) = true then b.cmdErr n 6
  else
    let b := (b.modEp (fun e => { e with reqs := e.reqs.filter (fun r => !(r.ctx == n)) })).freeStreams n
    let b := (b).modCtx n (fun c => { c with desc := none, newDesc := none, prog := [], faulted := none, firstFail := none })
    ((b.setFlag .ep (offCtxState n) 15 false).setFlag .ep (offCtxState n) 14 false).setCtxState n 0

end Blk

/-! ## Meanings -/

/-- A command of the host written to a context. -/
def ctxWrite (n : Nat) (s : State) (f : Blk → Blk) : Res := s.onIf (hasCtx n) (fun b => b.hostWrite .ep f)

/-- ACTIVATE (R131, R136, R137). -/
def execActivate (n : Nat) (desc : Option (List Byte)) (s : State) : Res := ctxWrite n s (fun b => b.activate n desc)

/-- EPOCH_TAKEN (R137). -/
def execEpochTaken (n : Nat) (s : State) : Res := s.onIf (hasCtx n) (fun b => b.finishActivate n)

/-- LOAD (R133, R136). -/
def execLoad (n : Nat) (save : Option (List Byte)) (s : State) : Res := ctxWrite n s (fun b => b.loadCtx n save)

/-- PREEMPT (R162). -/
def execPreempt (n : Nat) (s : State) : Res := ctxWrite n s (fun b => b.preemptCtx n 1)

/-- PREEMPT_NOW (R163). -/
def execPreemptNow (n : Nat) (s : State) : Res := ctxWrite n s (fun b => b.preemptCtx n 2)

/-- PREEMPT_STOP (R162, R163). -/
def execPreemptStop (n : Nat) (s : State) : Res := s.onIf (hasCtx n) (fun b => b.preemptStop n)

/-- RESUME_RETRY (R136). -/
def execResumeRetry (n : Nat) (s : State) : Res := ctxWrite n s (fun b => b.resumeRetry n)

/-- RESUME_SKIP (R136, R149). -/
def execResumeSkip (n : Nat) (s : State) : Res := ctxWrite n s (fun b => b.resumeSkip n)

/-- CTX_ABORT (R164). -/
def execCtxAbort (n : Nat) (s : State) : Res := ctxWrite n s (fun b => b.cmdAbort n)

/-- CTX_ABORT_COMPLETE (R164, R474). -/
def execCtxAbortComplete (n : Nat) (posted : Bool) (s : State) : Res := s.onIf (hasCtx n) (fun b => b.abortDone n posted)

/-- TAG_QUARANTINE_END (R164, R165). -/
def execTagQuarantineEnd (n : Nat) (s : State) : Res := s.onIf (hasCtx n) (fun b => b.quarantineEnd n)

/-- CONTEXT_RELEASE (R136). -/
def execContextRelease (n : Nat) (s : State) : Res := ctxWrite n s (fun b => b.releaseCtx n)

/-- EPOCH_ROLL (R138). -/
def execEpochRoll (n : Nat) (s : State) : Res := s.onIf (hasCtx n) (fun b => b.epochRoll n)

end Sys2Proof.Machine
end

