-- ==== Sys2Proof/Machine/Program.lean ====
section
/-! DEFINITION. Descriptor programs: the doorbell, fetching, engines, and what each descriptor type begins (R141-R145, R148-R152). -/

namespace Sys2Proof.Machine

open Sys2Proof

/-- Descriptors a ring holds. -/
def CtxDesc.ringSlots (d : CtxDesc) : Nat := 2 ^ (d.ringSize + 6)

namespace Blk

/-! ## The doorbell page (R141) -/

def prodOf (b : Blk) (n : Nat) : Nat := b.fld .ep (offProd n) 31 0
def consOf (b : Blk) (n : Nat) : Nat := b.fld .ep (offCons n) 31 0

/-- PROD_WRITE: a value more than a ring ahead of CONS is refused; a context without configuration has no ring. -/
def writeProd (b : Blk) (n v : Nat) : Blk :=
  let size : Nat := match (b.ctx n).desc with
    | some d => d.ringSlots
    | none => 0
  if size < (v % 2 ^ 32 + 2 ^ 32 - b.consOf n) % 2 ^ 32 then b.cmdErr n 5 else b.setFld .ep (offProd n) 31 0 v

/-! ## Fetching (R141, R152) -/

end Blk

/-- DESCRIPTOR_FETCH: the descriptor at CONS copied on chip; an uncorrectable error aborts the context. -/
def State.fetchDesc (s : State) (n : Nat) (ecc : Ecc) : State :=
  let b := s.b
  match (b.ctx n).desc with
  | none => s
  | some d =>
    if b.ctxState n < 2 ∨ 4 < b.ctxState n ∨ d.engineMask = 0 ∨ 32 ≤ (b.ctx n).prog.length ∨ b.consOf n = b.prodOf n then s
    else
      let i := b.consOf n
      let off := 4096 * d.ringOff + 64 * (i % d.ringSlots)
      let (st, data, s) := s.epRead off 64 ecc
      if st ≠ 0 ∨ b.ringOk d = false then { s with b := s.b.abortCtx n 4 }
      else
        let x : ProgDesc := { ring := i, qs := (upto 8).map (fun k => leAt data (8 * k) 8), begun := false, left := 0, bytes := 0, ext := [] }
        let b := s.b.modCtx n (fun c => { c with prog := c.prog ++ [x] })
        { s with b := (b.setFld .ep (offCons n) 31 0 (i + 1)).fillDesc n x }

namespace Blk

/-! ## Engines (R142) -/

/-- Whether the head of a program waits without an engine: a WAIT begun and not met, or a CONTRIB begun that has nothing to send. -/
def idleHead (b : Blk) (n : Nat) (d : ProgDesc) : Bool :=
  d.begun && (d.type == 5 || (d.type == 4 && (match b.collOf n d with
    | some x => x.toSend.isEmpty
    | none => true)))

/-- Whether a context could use an engine: resident, allowed on it, without one, with work. -/
def wantsEngine (b : Blk) (e n : Nat) : Bool :=
  let c := b.ctx n
  (b.ctxState n == 2 || (b.ctxState n == 3 && c.stop == 1)) && c.engine.isNone && c.faulted.isNone
    && (match c.desc with | some d => bitOf d.engineMask e | none => false)
    && (match c.prog with
      | d :: _ => !b.idleHead n d && (b.ctxState n == 2 || d.begun)
      | [] => false)

/-- Whether the context an engine runs may be changed: its descriptor has issued its last request, 1 MiB of one descriptor has been
issued, or it has nothing to run. -/
def mayLeave (b : Blk) (n : Nat) : Bool :=
  match (b.ctx n).prog with
  | [] => true
  | d :: _ => !d.begun || decide (2 ^ 20 ≤ d.bytes) || b.idleHead n d || decide (b.ctxState n ≠ 2 ∧ b.ctxState n ≠ 3)

/-- The next context of an engine, round-robin from the one after the last. -/
def nextCtx (b : Blk) (e : Nat) : Option Nat :=
  let last := b.ep.engCtx.find e
  let from_ : Nat := match last with
    | some n => n + 1
    | none => 0
  ((upto 1024).map (fun i => (from_ + i) % 1024)).find? (fun n => b.wantsEngine e n)

/-- ENGINE_SWITCH: the engine takes the context whose turn it is. -/
def switchEngine (b : Blk) (e n : Nat) : Blk :=
  if b.nextCtx e ≠ some n then b
  else if b.flag .ep (offCe e) 63 then
    let m := b.fld .ep (offCe e) 62 53
    if b.mayLeave m then (b.leaveEngine m).takeEngine e n else b
  else b.takeEngine e n

/-! ## Descriptors begin (R143, R144) -/

/-- The head descriptor of a program when it can begin issuing: the context is RESIDENT and runs on an engine. -/
def beginHead (b : Blk) (n type : Nat) : Option ProgDesc :=
  match (b.ctx n).prog with
  | d :: _ => if b.ctxState n = 2 ∧ (b.ctx n).engine.isSome = true ∧ d.begun = false ∧ (type = 16 ∨ d.type = type) then some d else none
  | [] => none

/-- The head descriptor begun, with a number of writes to issue. -/
def markBegun (b : Blk) (n left : Nat) : Blk :=
  b.modCtx n (fun c => { c with prog := match c.prog with
    | d :: r => { d with begun := true, left := left, bytes := 0 } :: r
    | [] => [] })

/-- Whether the tally a descriptor credits is owned by its context; without CPL_EN it credits none. -/
def tallyOk (b : Blk) (n : Nat) (d : ProgDesc) : Bool := !d.cplEn || b.owns n d.tally

/-- Whether virtual addresses have bits [63:57] zero. -/
def vaOk (a : Nat) : Bool := decide (a < 2 ^ 57)

/-- Whether the quadwords from k on are zero. -/
def zeroFrom (d : ProgDesc) (k : Nat) : Bool := (upto 8).all (fun i => decide (i < k) || d.q i == 0)

/-- Reads of the source bytes of one write, split at 4,096 B boundaries: offset in the write, address, length. -/
def sourceCuts (s len : Nat) : List (Nat × Nat × Nat) :=
  let e := (s / 4096 + 1) * 4096
  if s + len ≤ e then [(0, s, len)] else [(0, s, e - s), (e - s, e, s + len - e)]

/-- One write of a COPY or STORE and the reads that feed it. -/
def addWrite (b : Blk) (n : Nat) (d : ProgDesc) (w : Nat × Nat × Bool) : Blk :=
  let (a, len, long) := w
  let at_ := a - d.dst
  let copy := d.type == 1
  let base : Req := { Req.blank with ctx := n, epoch := b.ctxEpoch n }
  let wr : Req := { base with
    why := .prog d.ring, op := 2, tc := if copy then 3 else 1, va := some a, wr := true, long := long, cplEn := d.cplEn, tally := d.tally, size_ := len }
  if d.inlined && !copy then
    let data := (upto 4).flatMap (fun k => leBytes 8 (d.q (4 + k)))
    let (r, b) := b.newReq { wr with payload := slice data at_ len }
    b.modEp (fun e => { e with reqs := e.reqs ++ [r] })
  else
    let cuts := sourceCuts (d.src + at_) len
    let wid := b.ep.nextReq + cuts.length
    let (ids, b) := cuts.foldl (fun (st : List Nat × Blk) c =>
      let (r, b) := st.2.newReq { base with
        why := .copyRead d.ring wid c.1, op := 1, va := some c.2.1, rd := true, rdBytes := c.2.2, size_ := c.2.2, opq := if copy then 0 else 1 }
      (st.1 ++ [r.id], b.modEp (fun e => { e with reqs := e.reqs ++ [r] }))) ([], b)
    let (r, b) := b.newReq { wr with feeds := ids }
    b.modEp (fun e => { e with reqs := e.reqs ++ [r] })

/-- COPY and STORE begin: the destination cut into writes (R145). -/
def beginMove (b : Blk) (n : Nat) (d : ProgDesc) (ok : Bool) : Blk :=
  if !ok || !b.tallyOk n d then b.headEnds n 0xD
  else
    let ws := cutWrites d.dst d.length
    b.forEach ws (fun b w => b.addWrite n d w) |>.markBegun n ws.length

/-- Rules of COPY's fields. -/
def copyOk (d : ProgDesc) : Bool := d.length != 0 && bits (d.q 0) 46 32 == 0 && vaOk d.src && vaOk d.dst && zeroFrom d 3

/-- Rules of STORE's fields; an inline one ignores SRC. -/
def storeOk (d : ProgDesc) : Bool :=
  d.length != 0 && bits (d.q 0) 46 33 == 0 && vaOk d.dst && d.q 3 == 0
    && (if d.inlined then decide (d.length ≤ 32) else decide (d.length ≤ 65536) && vaOk d.src && zeroFrom d 4)

/-- TOPCOAT begins: one TOPCOAT_WRITE. -/
def beginTopcoat (b : Blk) (n : Nat) (d : ProgDesc) : Blk :=
  let big := bitOf (d.q 0) 32
  let k := if big then 8 else 4
  let ok := bits (d.q 0) 46 34 == 0 && d.length == 0 && d.q 1 == 0 && vaOk d.dst && d.dst % k == 0 && (big || bits (d.q 3) 63 32 == 0) && zeroFrom d 4
  if !ok || !b.tallyOk n d then b.headEnds n 0xD
  else
    let (r, b) := b.newReq { Req.blank with
      ctx := n, why := .prog d.ring, op := 3, tc := if bitOf (d.q 0) 33 then 3 else 1, va := some d.dst, wr := true, cplEn := d.cplEn, tally := d.tally,
      payload := leBytes k (d.q 3), size_ := k }
    (b.modEp (fun e => { e with reqs := e.reqs ++ [r] })).markBegun n 1

/-- SIGNAL begins: one TALLY_INC. -/
def beginSignal (b : Blk) (n : Nat) (d : ProgDesc) : Blk :=
  let ok := d.length != 0 && bits (d.q 0) 46 32 == 0 && d.q 1 == 0 && d.q 2 == 0 && bits (d.q 3) 63 26 == 0 && zeroFrom d 4
  if !ok || !b.tallyOk n d then b.headEnds n 0xD
  else
    let (r, b) := b.newReq { Req.blank with
      ctx := n, why := .prog d.ring, op := 0xC, tc := 1, wr := true, cplEn := d.cplEn, tally := d.tally, node := bits (d.q 3) 13 0,
      off := bits (d.q 3) 25 14, opq := 2, payload := leBytes 4 d.length }
    (b.modEp (fun e => { e with reqs := e.reqs ++ [r] })).markBegun n 1

/-- ERR on the tally of a descriptor that adds no count (R144). -/
def errOnly (b : Blk) (n : Nat) (d : ProgDesc) : Blk := if b.mayCredit n d then b.tallyErr d.tally 0xD else b

/-- WAIT begins: it is met at once, or holds the program without an engine; having no request to issue it counts for its engine when it
begins (R142, R446). -/
def beginWait (b : Blk) (n : Nat) (d : ProgDesc) : Blk :=
  let t := bits (d.q 3) 11 0
  let ok := !d.cplEn && bits (d.q 0) 46 32 == 0 && d.q 1 == 0 && d.q 2 == 0 && bits (d.q 3) 63 12 == 0 && zeroFrom d 4 && b.owns n t
  if !ok then (b.errOnly n d).progEnd n
  else if reached (b.tallyCount t) d.length then b.progEnd n
  else ((b.engineIssued n).markBegun n 0).leaveEngine n

/-- WAIT_MET: the program goes on. -/
def waitMet (b : Blk) (n : Nat) : Blk :=
  match (b.ctx n).prog with
  | d :: _ =>
    if (b.ctxState n = 2 ∨ b.ctxState n = 3) ∧ d.begun = true ∧ d.type = 5 ∧ reached (b.tallyCount (bits (d.q 3) 11 0)) d.length = true then b.progEnd n
    else b
  | [] => b

/-- A descriptor of a reserved type is passed over. -/
def passReserved (b : Blk) (n : Nat) (d : ProgDesc) : Blk := if d.type = 0 ∨ 7 ≤ d.type then (b.errOnly n d).progEnd n else b

/-- A head descriptor of a type begins. -/
def begin_ (b : Blk) (n type : Nat) (f : Blk → ProgDesc → Blk) : Blk :=
  match b.beginHead n type with
  | some d => f b d
  | none => b

end Blk

/-! ## Meanings -/

/-- PROD_WRITE (R141). -/
def execProdWrite (n val : Nat) (s : State) : Res := ctxWrite n s (fun b => b.writeProd n val)

/-- DESCRIPTOR_FETCH (R141, R152). -/
def execDescriptorFetch (n : Nat) (ecc : Ecc) (s : State) : Res :=
  if hasCtx n then .next (if s.b.serving .ep then s.fetchDesc n ecc else s) else .fault .noSuchUnit

/-- ENGINE_SWITCH (R142). -/
def execEngineSwitch (e n : Nat) (s : State) : Res :=
  s.onIf (hasCopyEngine e && hasCtx n) (fun b => if b.serving .ep then b.switchEngine e n else b)

/-- COPY (R144, R145). -/
def execCopy (n : Nat) (s : State) : Res := ctxCmd n s (fun b => b.begin_ n 1 (fun b d => b.beginMove n d (Blk.copyOk d)))

/-- STORE (R144, R145). -/
def execStore (n : Nat) (s : State) : Res := ctxCmd n s (fun b => b.begin_ n 2 (fun b d => b.beginMove n d (Blk.storeOk d)))

/-- TOPCOAT (R75-R77, R144). -/
def execTopcoat (n : Nat) (s : State) : Res := ctxCmd n s (fun b => b.begin_ n 3 (fun b d => b.beginTopcoat n d))

/-- WAIT (R142, R144). -/
def execWait (n : Nat) (s : State) : Res := ctxCmd n s (fun b => b.begin_ n 5 (fun b d => b.beginWait n d))

/-- WAIT_MET (R142, R148). -/
def execWaitMet (n : Nat) (s : State) : Res := ctxCmd n s (fun b => b.waitMet n)

/-- SIGNAL (R144). -/
def execSignal (n : Nat) (s : State) : Res := ctxCmd n s (fun b => b.begin_ n 6 (fun b d => b.beginSignal n d))

/-- RESERVED_DESCRIPTOR (R144). -/
def execReservedDescriptor (n : Nat) (s : State) : Res := ctxCmd n s (fun b => b.begin_ n 16 (fun b d => b.passReserved n d))

end Sys2Proof.Machine
end

