-- ==== Sys2Proof/Machine/Datagram.lean ====
section
/-! DEFINITION. Datagram queues of the end point, and partition abort at the end point (R168-R174, R472, R491, R541). -/

namespace Sys2Proof.Machine

open Sys2Proof

namespace Blk

/-! ## Queue registers (R169) -/

def dgqFld (b : Blk) (q r hi lo : Nat) : Nat := b.fld .ep (offDgq q r) hi lo
def dgqValid (b : Blk) (q : Nat) : Bool := b.dgqFld q 0 63 63 == 1
def dgqPart (b : Blk) (q : Nat) : Nat := b.dgqFld q 0 55 44

/-- Bus address of entry i of a ring whose base stands in register r. -/
def dgqEntry (b : Blk) (q r i : Nat) : Nat := b.dgqFld q r 63 12 * 4096 + 32 * (i % 1024)

/-- A write of EP_DGQ_q_CFG: PARTITION and PLANE_MASK are held while VALID is 1; a refused VALID stays 0 and sets CFG_ERR. -/
def writeDgqCfg (b : Blk) (q v : Nat) : Blk :=
  let o := offDgq q 0
  let was := b.dgqValid q
  let pid := bits v 55 44
  let badPid := pid == 0 || pid == 0xFFF
  let b := if bitOf v 0 then b.setFlag .ep o 0 false else b
  let b := b.setFlag .ep o 62 (bitOf v 62)
  let b := if was then b else
    let b := b.setFld .ep o 59 56 (bits v 59 56)
    if badPid then b else b.setFld .ep o 55 44 pid
  let want := bitOf v 63
  if want == was then b
  else if !want then b.setFlag .ep o 63 false
  else if badPid || bits v 59 56 == 0 || b.dgqFld q 8 63 12 == 0 || b.dgqFld q 24 63 12 == 0 then b.setFlag .ep o 0 true
  else b.setFlag .ep o 63 true

/-! ## Sending (R170) -/

/-- Whether a send entry keeps its layout; FLAGS and STATUS are the end point's to write. -/
def sendEntryOk (e : List Byte) : Bool :=
  decide (60 ≤ leAt e 8 2) && decide (leAt e 8 2 ≤ 4096) && decide (leAt e 10 2 < 16384) && decide (leAt e 12 1 < 16)
    && (slice e 16 16).all (fun x => x == 0#8)

/-- Planes a queue can send in to a node. -/
def dgqPlanes (b : Blk) (q node : Nat) : List Nat :=
  if b.nodeValid node then (upto 4).filter (fun p => bitOf (b.dgqFld q 0 59 56) p && bitOf (b.nodeRoute node) p && b.portUp .ep p) else []

/-- An entry finished: STATUS, then FLAGS, then TX_HEAD. -/
def finishSend (b : Blk) (q st : Nat) : Blk :=
  let head := b.dgqFld q 16 42 32
  let a := b.dgqEntry q 8 head
  let b := (b.emit (.dma .ep (a + 14) (leBytes 2 st))).emit (.dma .ep (a + 13) [1#8])
  b.setFld .ep (offDgq q 16) 42 32 (head + 1)

/-- The DATAGRAM of an entry. -/
def dgPacket (b : Blk) (q plane : Nat) (e frame : List Byte) : Packet :=
  let n := leAt e 8 2
  mkPacket { tc := 7, opcode := 0x38, part := b.dgqPart q, keyGen := (b.pidKey .ep (b.dgqPart q)).g, plane := plane, dst := leAt e 10 2,
             src := b.ep.node, low := packBits [(14, n), (4, leAt e 12 1), (78, 0)] } true (slice frame 0 n)

/-- The entry at TX_HEAD taken: it waits for the host link and for a key; otherwise it is sent, or ends unsent. -/
def sendDatagram (b : Blk) (q : Nat) (e frame : List Byte) : Blk :=
  if !b.dgqValid q || b.dgqFld q 16 42 32 == b.dgqFld q 16 10 0 || !b.dmaOk .ep || (b.pidKey .ep (b.dgqPart q)).cur.isNone then b
  else if !sendEntryOk e then (b.count .ep (offDgq q 40) 47 32 1).finishSend q 0xD
  else
    let usable := b.dgqPlanes q (leAt e 10 2)
    let from_ := b.ep.dgPlane.get q 0
    match ((upto 4).map (fun i => (from_ + i) % 4)).find? (fun p => usable.contains p) with
    | none => (b.count .ep (offDgq q 40) 63 48 1).finishSend q 6
    | some p =>
      let b := b.modEp (fun x => { x with dgPlane := x.dgPlane.set q ((p + 1) % 4) 0 })
      (b.sendOn .ep p (b.dgPacket q p e frame)).finishSend q 0

/-! ## Receiving (R171, R172, R174) -/

/-- A DATAGRAM at an end-point port; `buf` is the bus address in the receive entry. One for another node is discarded before any further check
unless the queue takes groups (R541); then one for a queue that is not valid; then any other that fails a test of R172, R9 and R42 among them,
which the port counts as well (log 51). -/
def takeDatagram (b : Blk) (port : Nat) (p : Packet) (buf : Nat) : Blk :=
  let b := b.owe .ep port (Packet.tc p) (Packet.slots p)
  let q := Packet.dgq p
  if !b.mine p && b.dgqFld q 0 62 62 != 1 then b.otherDrop .ep port
  else
    let bad := !Packet.hcrcOk p || Packet.malformed p
    let b := if !Packet.hcrcOk p then b.count .ep (offPort .ep port 0x10) 47 32 1
      else if Packet.malformed p then b.count .ep (offPort .ep port 0x10) 63 48 1 else b
    if !b.dgqValid q then b.otherDrop .ep port
    else if bad || b.dgqPart q != Packet.part p || !b.keyOk .ep (Packet.part p) (Packet.keyGen p) || Packet.tailMarked p || !Packet.checkOk p then
      b.count .ep (offDgq q 40) 15 0 1
    else
      let b := b.noteKey .ep (Packet.part p) (Packet.keyGen p)
      let done := b.dgqFld q 32 42 32
      if done = b.dgqFld q 32 10 0 ∨ b.dmaOk .ep = false then b.count .ep (offDgq q 40) 31 16 1
      else
        let b := b.emit (.dma .ep buf ((Packet.wire p).take (Packet.frameLen p)))
        let flags := 1 + 2 * b2n (!b.mine p) + 4 * Packet.plane p
        let entry := leBytes 2 (Packet.frameLen p) ++ leBytes 2 (Packet.src p) ++ leBytes 2 (Packet.dst p) ++ leBytes 1 flags ++ zeros 17
        let b := b.emit (.dma .ep (b.dgqEntry q 24 done + 8) entry)
        let b := b.setFld .ep (offDgq q 32) 42 32 (done + 1)
        b.setPending .ep offDgqPend q 8

/-! ## Partition abort at the end point (R472, R474) -/

/-- ABORT_NOTICE: a record, vector 2, and with AUTO the abort of the partition's contexts. -/
def takeNotice (b : Blk) (port : Nat) (p : Packet) : Blk :=
  match b.arrive port p (b.mine p) with
  | (false, b) => b
  | (true, b) =>
    if Packet.hops p ≠ 0 then b.otherDrop .ep port
    else
      let pid := beNat (slice p.payload 0 2) % 4096
      let node := b.fld .ep (offPort .ep port 0) 47 34
      let b := b.errRecord .ep { cls := 0, source := 0x13, event := 0x03, action := 0, inst := port, part := pid,
                                 detail := node + 65536 * leAt p.payload 2 1 }
      let b := b.sendVector .ep 2
      if b.flag .ep offAbortCfg 0 then b.abortPart pid 2 else b

end Blk

/-! ## Meanings -/

/-- DGQ_CFG_WRITE (R169, R174). -/
def execDgqCfgWrite (q val : Nat) (s : State) : Res := s.onIf (hasDgq q) (fun b => b.hostWrite .ep (fun b => b.writeDgqCfg q val))

/-- DATAGRAM_SEND (R170). -/
def execDatagramSend (q : Nat) (entry frame : List Byte) (s : State) : Res :=
  s.onIf (hasDgq q) (fun b => if b.serving .ep then b.sendDatagram q entry frame else b)

/-- DATAGRAM (R171, R172). -/
def execDatagram (port : Nat) (p : Packet) (buf : Nat) (s : State) : Res :=
  epCmd port s (fun b => if Packet.opcode p = 0x38 then b.takeDatagram port p buf else b)

/-- ABORT_NOTICE (R472, R491). -/
def execAbortNotice (port : Nat) (p : Packet) (s : State) : Res :=
  epCmd port s (fun b => if Packet.opcode p = 0x32 then b.takeNotice port p else b)

/-- EP_PART_ABORT (R472). -/
def execEpPartAbort (partId : Nat) (s : State) : Res := s.on (fun b => b.hostWrite .ep (fun b => b.abortPart partId 1))

end Sys2Proof.Machine
end

