-- ==== Sys2Proof/Machine/Collective.lean ====
section
/-! DEFINITION. Collective slots of the switch: registers, legs, packets, admission, accumulation, reset, rounding, closing (R204-R217,
R222-R240). -/

namespace Sys2Proof.Machine

open Sys2Proof

/-- A slot that runs nothing. -/
def Slot.idle : Slot :=
  { readyLegs := [], readyUp := false, joined := [], expGot := [], exps := [], expUp := false, screed := false, blocks := [], resets := [],
    fwd := [], acks := [], ackUp := [], closeAcks := [], closeUp := false, doneAcks := [], doneUp := false, progressAt := 0,
    closeAt := none, doneAt := none, sentAt := [], reserved := 0, order := 0, low := 0 }

/-- The resend interval, ns (R224). -/
def tResend : Nat := 50000

namespace Blk

/-! ## Registers of a slot (R204-R213, R543) -/

def cfld (b : Blk) (n r hi lo : Nat) : Nat := b.fld .sw (offColl n r) hi lo
def slotState (b : Blk) (n : Nat) : Nat := b.cfld n 0x18 3 0
def role (b : Blk) (n : Nat) : Nat := b.cfld n 0 63 62
def isRoot (b : Blk) (n : Nat) : Bool := b.role n == 0 || b.role n == 3
def memberLegs (b : Blk) (n : Nat) : Bool := b.role n ≤ 1
def collExp (b : Blk) (n : Nat) : Bool := b.cfld n 0 61 61 == 1
def upPort (b : Blk) (n : Nat) : Nat := b.cfld n 0 60 54
def collPart (b : Blk) (n : Nat) : Nat := b.cfld n 0 53 42
def collIdOf (b : Blk) (n : Nat) : Nat := b.cfld n 0 41 26
def nchunks (b : Blk) (n : Nat) : Nat := b.cfld n 0 25 6 + 1
def chunkSize (b : Blk) (n : Nat) : Nat := 2 ^ (b.cfld n 0 5 3 + 14)
def win (b : Blk) (n : Nat) : Nat := b.cfld n 8 63 57 + 1
def lastUnits (b : Blk) (n : Nat) : Nat := b.cfld n 8 56 47 + 1
def nmemb (b : Blk) (n : Nat) : Nat := b.cfld n 8 46 33 + 1
/-- TIMEOUT in ns. -/
def collTimeout (b : Blk) (n : Nat) : Nat := 100000 * b.cfld n 8 32 16
def collMcast (b : Blk) (n : Nat) : Nat := b.cfld n 8 15 4
def upIndex (b : Blk) (n : Nat) : Nat := b.cfld n 0x38 6 0
def arithDtype (b : Blk) (n : Nat) : Nat := b.cfld n 0x20 15 12
def arithWidth (b : Blk) (n : Nat) : Nat := b.cfld n 0x20 9 8
def qInForce (b : Blk) (n : Nat) : Int := toSigned 16 (b.cfld n 0x28 63 48)
def wInForce (b : Blk) (n : Nat) : Nat := windowBits (b.cfld n 0x28 43 42)
def dtypeInForce (b : Blk) (n : Nat) : Nat := b.cfld n 0x28 41 38

/-- Bytes of a chunk. -/
def chunkBytes (b : Blk) (n c : Nat) : Nat := if c + 1 = b.nchunks n then 256 * b.lastUnits n else b.chunkSize n

/-- FRAG_LAST of a chunk's contribution or result. -/
def chunkFragLast (b : Blk) (n c : Nat) : Nat := (b.chunkBytes n c + 4095) / 4096 - 1

/-- Elements of a chunk. -/
def chunkElems (b : Blk) (n c : Nat) : Nat := elemCount (b.dtypeInForce n) (b.chunkBytes n c)

def setSlotState (b : Blk) (n v : Nat) : Blk := b.setFld .sw (offColl n 0x18) 3 0 v

/-- A command or write refused with a cause (R213). -/
def slotErr (b : Blk) (n cause : Nat) : Blk := (b.setFld .sw (offColl n 0x18) 15 12 cause).setFlag .sw (offColl n 0x18) 11 true

def slot (b : Blk) (n : Nat) : Slot := b.sw.slots.get n Slot.idle

def setSlot (b : Blk) (n : Nat) (x : Slot) : Blk := b.modSw (fun s => { s with slots := s.slots.set n x Slot.idle })

def modSlot (b : Blk) (n : Nat) (f : Slot → Slot) : Blk := b.setSlot n (f (b.slot n))

/-- A slot's bit of SW_COLL_PEND_k (R463). -/
def collPend (b : Blk) (n : Nat) : Blk := b.setPending .sw (offCollPend (n / 64)) (n % 64) 6

/-- A counter of SW_COLL_n_COUNTS (R216): 48 DUP_DROP, 32 DISCARD, 16 RESET, 0 RESEND. -/
def slotCount (b : Blk) (n lo k : Nat) : Blk := b.count .sw (offColl n 0x30) (lo + 15) lo k

/-- Whether a message of a slot (its number in `sentAt`) was last sent T_R ago or earlier (R224). -/
def resendDue (b : Blk) (n k : Nat) : Bool := decide ((b.slot n).sentAt.get k 0 + tResend ≤ b.now .sw)

/-- A message of a slot is sent now. -/
def noteSent (b : Blk) (n k : Nat) : Blk :=
  let t := b.now .sw
  b.modSlot n (fun s => { s with sentAt := s.sentAt.set k t 0 })

/-! ## Legs (R211) -/

def legFld (b : Blk) (n e hi lo : Nat) : Nat := b.fld .sw (offLeg n e) hi lo
def legValid (b : Blk) (n e : Nat) : Bool := b.legFld n e 63 63 == 1
def legChild (b : Blk) (n e : Nat) : Bool := b.legFld n e 62 62 == 1
def legPort (b : Blk) (n e : Nat) : Nat := b.legFld n e 61 55
def legNode (b : Blk) (n e : Nat) : Nat := b.legFld n e 54 41
def legIndex (b : Blk) (n e : Nat) : Nat := b.legFld n e 40 27

/-- Entries of the valid legs. -/
def legs (b : Blk) (n : Nat) : List Nat := (upto 72).filter (fun e => b.legValid n e)

/-- The leg a packet from below comes from: arrival port, MEMBER, and for a member its node (R223). -/
def legOf (b : Blk) (n port : Nat) (p : Packet) : Option Nat :=
  (b.legs n).find? (fun e => b.legPort n e == port && b.legIndex n e == Packet.member p && (b.legChild n e || b.legNode n e == Packet.src p))

/-! ## Packets (R222) -/

/-- A collective packet of a slot. -/
def collPacket (b : Blk) (n op tc dst src chunk member frag fragLast status : Nat) (long : Bool) (payload : List Byte)
    (tag : Option Nat := none) : Packet :=
  mkPacket { tc := tc, opcode := op, part := b.collPart n, keyGen := (b.pidKey .sw (b.collPart n)).g, plane := b.swPlane, dst := dst, src := src,
             low := lowColl (b.collIdOf n) chunk member frag fragLast status } long payload tag

/-- The payload of a control packet: CTL, ARG, PARAMS, MASK. -/
def ctlPayload (ctl arg : Nat) (params : List Byte) (mask : List Byte) : List Byte :=
  leBytes 1 ctl ++ leBytes 1 arg ++ zeros 2 ++ padTo 12 params ++ padTo 16 mask

/-- A packet of the reduction complex out of one port; a port that is not live loses it. -/
def collOut (b : Blk) (port : Nat) (p : Packet) : Blk :=
  if b.live .sw port then b.internalTo srcColl p [port] (Packet.cells p) else b.countDrop p

/-- The ports of a slot's multicast entry that can send, without the one its parent is behind (R45, R272); none where the entry does not serve
the partition (R291). -/
def downPorts (b : Blk) (n : Nat) : Option (List Nat) :=
  (b.mcastPorts (b.collMcast n) (b.collPart n) (if b.isRoot n then 127 else b.upPort n)).map (fun l => l.filter (fun i => b.live .sw i))

/-- A packet that the slot's multicast entry refuses: discarded and counted (R291). -/
def mcastRefused (b : Blk) (n : Nat) (p : Packet) : Blk := ((b.countDrop p).count .sw offRouteStat 47 32 1).slotCount n 32 1

/-- A packet of a slot toward its legs through its multicast entry (R225, R250). -/
def collDown (b : Blk) (n : Nat) (p : Packet) : Blk :=
  match b.downPorts n with
  | none => b.mcastRefused n p
  | some ports => b.internalTo srcColl p ports (Packet.cells p)

/-- A packet sent again through the multicast entry, to the ports of the legs that still want it (R225, R250). -/
def collDownTo (b : Blk) (n : Nat) (es : List Nat) (p : Packet) : Blk :=
  match b.downPorts n with
  | none => b.mcastRefused n p
  | some ports => b.internalTo srcColl p (ports.filter (fun i => es.any (fun e => b.legPort n e == i))) (Packet.cells p)

/-- A packet that the reduction complex passes on: one hop more, and none behind the fifth (R37). -/
def passOn (b : Blk) (port : Nat) (p : Packet) (f : Blk → Packet → Blk) : Blk :=
  if Packet.hops p = 5 then (b.countDrop p).count .sw (offPort .sw port 0x18) 15 0 1
  else
    let p := Packet.setH p 146 144 (Packet.hops p + 1)
    f b (Packet.setH p 31 0 (hcrcOf p.hdr.toNat (!Packet.isLong p) p.payload))

/-- A packet of a slot to its parent. -/
def collUp (b : Blk) (n : Nat) (p : Packet) : Blk := b.collOut (b.upPort n) p

/-- A control packet upward: no node, MEMBER the slot's UP_INDEX. -/
def ctlUp (b : Blk) (n op ctl chunk : Nat) : Blk :=
  b.collUp n (b.collPacket n op 0 16383 16383 chunk (b.upIndex n) 0 0 0 false (ctlPayload ctl 0 [] []))

/-- A control packet down the tree. -/
def ctlDownPacket (b : Blk) (n op ctl chunk : Nat) (mask : List Byte) : Packet :=
  b.collPacket n op 0 16383 16383 chunk 0 0 0 0 false (ctlPayload ctl 0 [] mask)

/-- A control packet to one leg: a member's carries its node. -/
def ctlLeg (b : Blk) (n e op ctl arg chunk : Nat) (params mask : List Byte) : Blk :=
  let dst := if b.legChild n e then 16383 else b.legNode n e
  b.collOut (b.legPort n e) (b.collPacket n op 0 dst 16383 chunk (b.legIndex n e) 0 0 0 false (ctlPayload ctl arg params mask))

/-- A packet as the copy for one leg: that leg's index in MEMBER (R250). -/
def forLeg (b : Blk) (n e : Nat) (p : Packet) : Packet :=
  let p := Packet.setH p 91 78 (b.legIndex n e)
  Packet.setH p 31 0 (hcrcOf p.hdr.toNat (!Packet.isLong p) p.payload)

/-- One copy of each packet for each leg of a list, through its PORT. -/
def toLegs (b : Blk) (n : Nat) (es : List Nat) (ps : List Packet) : Blk :=
  b.forEach es (fun b e => b.forEach ps (fun b p => b.collOut (b.legPort n e) (b.forLeg n e p)))

/-! ## COLL_SCREED (R189, R190, R225) -/

def screedPacket (b : Blk) (n : Nat) : Packet :=
  b.collPacket n 0x23 5 16383 16383 0 0 0 0 0 false
    (beBytes 2 (b.cfld n 0x28 63 48) ++ leBytes 1 (b.cfld n 0x28 43 42) ++ leBytes 1 (b.cfld n 0x28 41 38))

/-- The announcement sent to one leg: to a child through the multicast entry, to a member through its PORT. DEDUCED: its MEMBER is 0, as R190
says of every COLL_SCREED, and not the leg's index that R250 gives the copies of a leaf (log 117). -/
def screedLeg (b : Blk) (n e : Nat) : Blk :=
  if b.legChild n e then b.collDownTo n [e] (b.screedPacket n) else b.collOut (b.legPort n e) (b.screedPacket n)

/-- The announcement forwarded: by multicast to child legs, to each joined member through its port. -/
def screedDown (b : Blk) (n : Nat) : Blk :=
  if b.memberLegs n then b.forEach (b.slot n).joined (fun b e => b.screedLeg n e) else b.collDown n (b.screedPacket n)

/-- Q, W and DTYPE in force recorded. -/
def recordScreed (b : Blk) (n q w dt : Nat) : Blk :=
  let o := offColl n 0x28
  let b := ((b.setFld .sw o 63 48 q).setFld .sw o 43 42 w).setFld .sw o 41 38 dt
  (b.setFlag .sw o 47 true).modSlot n (fun s => { s with screed := true })

/-- Exponent packets a collective has. -/
def expPackets (b : Blk) (n : Nat) : Nat := (b.nchunks n + 2047) / 2048

/-- Whether every leg has delivered every exponent packet. -/
def expsComplete (b : Blk) (n : Nat) : Bool :=
  (b.legs n).all (fun e => decide ((b.slot n).expGot.get e 0 = 2 ^ b.expPackets n - 1))

/-- Whether every child leg has sent READY. -/
def allReady (b : Blk) (n : Nat) : Bool := (b.legs n).all (fun e => !b.legChild n e || (b.slot n).readyLegs.contains e)

/-- The combined entry of a chunk. -/
def expEntry (b : Blk) (n c : Nat) : Nat := (b.slot n).exps.get c 0x8000

/-- The root sends COLL_SCREED once its children are ready and the entries it needs are combined (R189, R225). -/
def tryScreed (b : Blk) (n : Nat) : Blk :=
  if !b.isRoot n || (b.slot n).screed || !b.allReady n || (b.collExp n && !b.expsComplete n) || b.slotState n != 2 then b
  else
    let w := b.arithWidth n
    let q : Int := if b.collExp n then autoScreed (windowBits w) ((b.slot n).exps.map (fun e => e.2)) else toSigned 16 (b.cfld n 0x20 47 32)
    let b := b.recordScreed n (ofSigned 16 q) w (b.arithDtype n)
    let t := b.now .sw
    (b.modSlot n (fun s => { s with progressAt := t })).screedDown n

/-- A packet of combined entries from chunk 2048 k on. -/
def expPacket (b : Blk) (n k : Nat) : Packet :=
  let cnt := min 2048 (b.nchunks n - 2048 * k)
  let long := decide (16 < cnt)
  let slots := if long then (cnt + 127) / 128 * 128 else cnt
  let payload := (upto slots).flatMap (fun j => beBytes 2 (if j < cnt then b.expEntry n (2048 * k + j) else 0x8000))
  b.collPacket n 0x22 4 16383 16383 (2048 * k) (b.upIndex n) 0 0 0 long payload

def sendExps (b : Blk) (n : Nat) : Blk := (b.noteSent n 1).forBelow (b.expPackets n) (fun b k => b.collUp n (b.expPacket n k))

/-- READY sent to the parent. -/
def sendReady (b : Blk) (n : Nat) : Blk := (b.noteSent n 0).ctlUp n 0x25 4 0

/-- Below the root, READY and the combined exponents go up once their legs have sent theirs (R188, R225). -/
def tryUp (b : Blk) (n : Nat) : Blk :=
  if b.isRoot n then b
  else
    let b := if b.allReady n && !(b.slot n).readyUp then (b.modSlot n (fun s => { s with readyUp := true })).sendReady n else b
    if b.collExp n && b.expsComplete n && !(b.slot n).expUp then (b.modSlot n (fun s => { s with expUp := true })).sendExps n else b

/-! ## Chunk blocks (R228) -/

def findBlock (b : Blk) (n c : Nat) : Option Block := (b.slot n).blocks.find? (fun x => x.chunk == c)

def putBlock (b : Blk) (n : Nat) (x : Block) : Blk :=
  b.modSlot n (fun s =>
    let l := if s.blocks.any (fun y => y.chunk == x.chunk) then s.blocks.map (fun y => if y.chunk == x.chunk then x else y)
      else s.blocks ++ [x]
    { s with blocks := l })

def dropBlock (b : Blk) (n c : Nat) : Blk := b.modSlot n (fun s => { s with blocks := s.blocks.filter (fun y => !(y.chunk == c)) })

/-- What one leg has sent, if it has sent anything. -/
def legRec (x : Block) (e : Nat) : LegRec := x.legs.get e { frags := [], doneAt := none, lastAt := 0 }

/-- A chunk's block: the one it holds, or a new one while fewer than WIN are held (R223). -/
def blockFor (b : Blk) (n c : Nat) : Option Block :=
  match b.findBlock n c with
  | some x => some x
  | none => if (b.slot n).blocks.length < b.win n then some { chunk := c, acc := [], tagSum := 0, legs := [], result := none } else none

/-- Whether every fragment expected of a leg is recorded. -/
def legDone (b : Blk) (n : Nat) (x : Block) (e : Nat) : Bool :=
  let r := legRec x e
  if b.legChild n e then
    let ec := b.chunkElems n x.chunk
    (upto ((ec + 4095) / 4096)).all (fun j => r.frags.get j 0 == 2 ^ (partFragLast ec (b.wInForce n) j + 1) - 1)
  else r.frags.get 0 0 == 2 ^ (b.chunkFragLast n x.chunk + 1) - 1

/-! ## Progress of a slot (R213) -/

/-- LOW and FREED below the root from the chunks forwarded. -/
def noteFwd (b : Blk) (n : Nat) : Blk :=
  let fwd := (b.slot n).fwd
  let low := ((upto (fwd.length + 1)).find? (fun c => !fwd.contains c)).getD 0
  (b.setFld .sw (offColl n 0x18) 63 44 low).setFld .sw (offColl n 0x18) 43 24 fwd.length

/-- F: the lowest chunk not freed at the root; LOW shows its low 20 bits. -/
def lowOf (b : Blk) (n : Nat) : Nat := (b.slot n).low

/-! ## Results (R230, R233) -/

/-- The fragments of a retained chunk as packets toward a destination node and member. -/
def resultPackets (b : Blk) (n c dst member : Nat) (r : Retained) : List Packet :=
  if r.status = 0 ∨ r.status = 9 then
    let last := b.chunkFragLast n c
    (upto (last + 1)).map (fun f => b.collPacket n 0x24 5 dst 16383 c member f last r.status true ((r.bytes.drop (4096 * f)).take 4096))
  else [b.collPacket n 0x24 5 dst 16383 c member 0 0 r.status true (zeros 256)]

/-- A fragment of a retained chunk toward ports: from reduction memory, without a copy in the packet buffer (R274). -/
def resultTo (b : Blk) (p : Packet) (ports : List Nat) : Blk := b.retainedTo srcColl p (ports.filter (fun i => b.live .sw i))

/-- A fragment of a retained chunk toward its legs through the multicast entry. -/
def resultDown (b : Blk) (n : Nat) (p : Packet) : Blk :=
  match b.downPorts n with
  | none => b.mcastRefused n p
  | some ports => b.resultTo p ports

/-- A fragment of a retained chunk for one member, routed by its DST_NODE (R233). -/
def resultRouted (b : Blk) (p : Packet) : Blk :=
  match b.route p 127 with
  | .eq n => b.retainedTo srcColl p [n]
  | .noRoute => (b.count .sw offRouteStat 31 0 1).countDrop p
  | _ => b.countDrop p

/-- The root retains a result and sends it (R225). -/
def retain (b : Blk) (n : Nat) (x : Block) (bytes : List Byte) (status : Nat) : Blk :=
  let t := b.now .sw
  let r : Retained := { bytes := bytes, status := status, sentAt := t }
  let b := b.putBlock n { x with acc := [], result := some r }
  b.forEach (b.resultPackets n x.chunk 16383 0 r) (fun b p => b.resultDown n p)

/-! ## Lateness (R240) -/

/-- A passed chunk's lateness entered for every leg. -/
def noteLate (b : Blk) (n : Nat) (x : Block) : Blk :=
  let ls := b.legs n
  let t := fun e => (legRec x e).doneAt.getD 0
  let lo := ls.foldl (fun a e => min a (t e)) (ls.foldl (fun a e => max a (t e)) 0)
  let hi := ls.foldl (fun a e => max a (t e)) 0
  b.forEach ls (fun b e =>
    let o := offLate n e
    let d := t e - lo
    let b := b.count .sw o 63 0 d
    let b := b.setFld .sw (o + 8) 31 0 (max (b.fld .sw (o + 8) 31 0) (min d 0xFFFFFFFF))
    let b := if t e = hi then b.wrapCount .sw (o + 8) 63 32 1 else b
    (b.setFld .sw (o + 16) 31 0 (min d 0xFFFFFFFF)).wrapCount .sw (o + 16) 63 32 1)

/-! ## Reset (R231) -/

/-- RECONTRIB to one leg. -/
def recontribLeg (b : Blk) (n e c arg mask : Nat) : Blk := b.ctlLeg n e 0x27 1 arg c [] (beBytes 8 mask)

/-- One more reset of a chunk counted; its number. -/
def countReset (b : Blk) (n c : Nat) : Nat × Blk :=
  let k := (b.slot n).resets.get c 0 + 1
  let b := b.modSlot n (fun s => { s with resets := s.resets.set c k 0 })
  (k, (b.slotCount n 16 1).setFlag .sw (offColl n 0x28) 32 true)

/-- A chunk that cannot be completed: CHUNK_FAIL to the parent, CHECK_FAIL at the root. -/
def chunkFails (b : Blk) (n c : Nat) : Blk :=
  if b.isRoot n then
    let x : Block := (b.findBlock n c).getD { chunk := c, acc := [], tagSum := 0, legs := [], result := none }
    b.retain n x [] 0xA
  else
    let b := (b.dropBlock n c).modSlot n (fun s => { s with fwd := addNew s.fwd c })
    (b.noteFwd n).ctlUp n 0x26 2 c

/-- A chunk reset: accumulator, retained copy and records discarded; RECONTRIB to every leg, or the fourth time CHUNK_FAIL. -/
def resetChunk (b : Blk) (n c : Nat) : Blk :=
  let (k, b) := b.countReset n c
  let b := b.modSlot n (fun s => { s with fwd := without s.fwd c, blocks := s.blocks.map (fun x =>
    if x.chunk == c then { x with acc := [], tagSum := 0, legs := [], result := none } else x) })
  let b := if b.isRoot n then b else b.noteFwd n
  if 4 ≤ k then b.chunkFails n c
  else b.forEach (b.legs n) (fun b e => b.recontribLeg n e c k (2 ^ (b.chunkFragLast n c + 1) - 1))

/-! ## A chunk completes (R195, R198-R202, R225) -/

/-- The partial sums of a verified chunk sent to the parent; its block is freed. -/
def forwardPartial (b : Blk) (n : Nat) (x : Block) : Blk :=
  let e := b.chunkElems n x.chunk
  let w := b.wInForce n
  let b := b.forBelow ((e + 4095) / 4096) (fun b j =>
    let bytes := partBytes x.acc e w j
    let last := partFragLast e w j
    b.forBelow (last + 1) (fun b f =>
      b.collUp n (b.collPacket n 0x21 4 16383 16383 (64 * x.chunk + j) (b.upIndex n) f last 0 true
        (padTo (partFragBytes e w j f) ((bytes.drop (4096 * f)).take 4096)) (some (partTag x.acc e w j f)))))
  ((b.dropBlock n x.chunk).modSlot n (fun s => { s with fwd := addNew s.fwd x.chunk })).noteFwd n

/-- The root rounds a verified chunk and sends the result. DESIGN CHOICE: RANGE_CHUNKS counts every rounding that finds RANGE, also of a chunk
rounded again after a reset (R205, log 148). -/
def roundAndSend (b : Blk) (n : Nat) (x : Block) : Blk :=
  let w := b.wInForce n
  let (e, d) := scaleOf (b.cfld n 0x20 17 16) (b.qInForce n) (toSigned 8 (b.cfld n 0x20 55 48)) (b.nmemb n)
  let (bytes, range) := roundChunk (b.dtypeInForce n) w x.acc (b.chunkElems n x.chunk) e d
  let b := b.when_ range (fun b => b.wrapCount .sw (offColl n 0x28) 31 0 1)
  let t := b.now .sw
  let b := b.modSlot n (fun s => { s with progressAt := t })
  b.retain n x (padTo (b.chunkBytes n x.chunk) bytes) (if range then 9 else 0)

/-- The inbound check of a chunk whose every leg is complete. `mis`: the root's two rounding units disagree; the result is withheld, and the chunk
handled as one whose inbound check failed (R198, R203, R205). -/
def chunkComplete (b : Blk) (n : Nat) (x : Block) (mis : Bool) : Blk :=
  let tag := residueTag ((upto (b.chunkElems n x.chunk)).map (fun i => (i, x.acc.get i 0)))
  if tag ≠ x.tagSum then b.resetChunk n x.chunk
  else if b.isRoot n && mis then (b.setFlag .sw (offColl n 0x28) 33 true).resetChunk n x.chunk
  else
    let b := b.noteLate n x
    if b.isRoot n then b.roundAndSend n x else b.forwardPartial n x

/-- A fragment of a leg accepted into a chunk: recorded, accumulated, its tag added; the last one completes the chunk. DEDUCED: complete is what
R228 calls so, every valid leg complete; a member index without a leg, of which R215 speaks, holds no chunk back at this switch (log 149). -/
def acceptFrag (b : Blk) (n e : Nat) (x : Block) (part frag tag : Nat) (acc : Tbl Int) (mis : Bool) : Blk :=
  let r := legRec x e
  let r := { r with frags := r.frags.set part (putBits (r.frags.get part 0) frag frag 1) 0, lastAt := b.now .sw }
  let put := fun (x : Block) (r : LegRec) => { x with legs := x.legs.set e r { frags := [], doneAt := none, lastAt := 0 } }
  let x := put { x with acc := acc, tagSum := (x.tagSum + tag) % tagP } r
  let x := if b.legDone n x e then put x { r with doneAt := some (b.timeNs .sw) } else x
  let b := b.putBlock n x
  if (b.legs n).all (fun e => b.legDone n x e) then b.chunkComplete n x mis else b

/-! ## Arrival at the reduction complex (R223, R469) -/

/-- A packet discarded by a slot: counted in DISCARD and in the partition's DROPS (R223, R304). -/
def discardColl (b : Blk) (n : Nat) (p : Packet) : Blk := (b.slotCount n 32 1).countDrop p

/-- A repeated fragment dropped: counted in DUP_DROP and in the partition's DROPS (R228, R304). -/
def dropDup (b : Blk) (n : Nat) (p : Packet) : Blk := (b.slotCount n 48 1).countDrop p

/-- Header checks of a packet handed to the reduction complex. -/
def collArrive (b : Blk) (port : Nat) (p : Packet) : Bool × Blk :=
  if !Packet.hcrcOk p then (false, b.count .sw (offPort .sw port 0x10) 47 32 1)
  else if Packet.malformed p then (false, (b.count .sw (offPort .sw port 0x10) 63 48 1).countDrop p)
  else if b.pidAborted (Packet.part p) then (false, b.countDrop p)
  else if Packet.tailMarked p || (Packet.opcode p == 0x22 && !Packet.checkOk p) then (false, (b.otherDrop .sw port).countDrop p)
  else (true, b)

/-- The slot in ADMIT_WAIT or DONE that holds a packet's PARTITION and COLL_ID: it counts what R223 discards. -/
def slotHolding (b : Blk) (p : Packet) : Option Nat :=
  (upto 1024).find? (fun n => (b.slotState n == 1 || b.slotState n == 4) && b.collPart n == Packet.part p && b.collIdOf n == Packet.collId p)

/-- A packet without a slot in ACTIVE or CLOSING discarded (R223): counted by the slot that holds its collective, otherwise by the port
(log 52). -/
def discardNoSlot (b : Blk) (port : Nat) (p : Packet) : Blk :=
  match b.slotHolding p with
  | some n => b.discardColl n p
  | none => (b.otherDrop .sw port).countDrop p

/-- The slot that holds a packet's PARTITION and COLL_ID in ACTIVE or CLOSING. -/
def slotFor (b : Blk) (p : Packet) : Option Nat :=
  (upto 1024).find? (fun n => (b.slotState n == 2 || b.slotState n == 3) && b.collPart n == Packet.part p && b.collIdOf n == Packet.collId p)

/-- A packet taken by its slot: header, slot and generation hold; `f` goes on with the slot. -/
def atSlot (b : Blk) (port : Nat) (p : Packet) (f : Blk → Nat → Blk) : Blk :=
  match b.collArrive port p with
  | (false, b) => b
  | (true, b) =>
    match b.slotFor p with
    | none => b.discardNoSlot port p
    | some n =>
      if !b.keyOk .sw (Packet.part p) (Packet.keyGen p) then b.discardColl n p
      else f (b.noteKey .sw (Packet.part p) (Packet.keyGen p)) n

/-- A packet from below: its leg must be valid, and a slot in CLOSING takes only acknowledgements. -/
def fromBelow (b : Blk) (port : Nat) (p : Packet) (ack : Bool) (f : Blk → Nat → Nat → Blk) : Blk :=
  b.atSlot port p (fun b n =>
    match b.legOf n port p with
    | none => b.discardColl n p
    | some e => if b.slotState n = 3 ∧ ack = false then b.discardColl n p else f b n e)

/-- A packet from above: through UP_PORT of a slot that has a parent. -/
def fromAbove (b : Blk) (port : Nat) (p : Packet) (f : Blk → Nat → Blk) : Blk :=
  b.atSlot port p (fun b n => if b.isRoot n || b.upPort n != port then b.discardColl n p else f b n)

/-! ## Contributions (R226, R228) -/

/-- Whether a packet's fragment fields fit a layout: FRAG_LAST, and payload bytes of the fragment. -/
def fragFits (p : Packet) (last bytes : Nat) : Bool :=
  Packet.fragLast p == last && decide (Packet.frag p ≤ last) && Packet.payloadBytes p == bytes

/-- Whether a chunk is rounded at the root. -/
def rounded (b : Blk) (n c : Nat) : Bool :=
  decide (c < b.lowOf n) || (match b.findBlock n c with | some x => x.result.isSome | none => false)

/-- Whether nothing more is added to a chunk: forwarded below the root, completed at it. -/
def settled (b : Blk) (n c : Nat) : Bool := (b.slot n).fwd.contains c || (b.isRoot n && b.rounded n c)

/-- COLL_CONTRIB. -/
def takeContrib (b : Blk) (port : Nat) (p : Packet) (mis : Bool) : Blk :=
  b.fromBelow port p false (fun b n e =>
    let c := Packet.chunk p
    let f := Packet.frag p
    let last := b.chunkFragLast n c
    if b.legChild n e || !(b.slot n).screed || !(b.slot n).joined.contains e || decide (b.nchunks n ≤ c)
        || !fragFits p last (min 4096 (b.chunkBytes n c - 4096 * f)) then b.discardColl n p
    else if b.settled n c then b.dropDup n p
    else match b.blockFor n c with
    | none => b.discardColl n p
    | some x =>
      if bitOf ((legRec x e).frags.get 0 0) f then b.dropDup n p
      else
        let w := b.wInForce n
        let acc := (elemsOf (b.dtypeInForce n) f (Packet.wire p)).foldl (fun (a : Tbl Int) v =>
          a.set v.1 (a.get v.1 0 + imageSum w (toImage (b.qInForce n) w v.2)) 0) x.acc
        b.acceptFrag n e x 0 f (Packet.check p) acc mis)

/-- COLL_PARTIAL (R192, R193). -/
def takePartial (b : Blk) (port : Nat) (p : Packet) (mis : Bool) : Blk :=
  b.fromBelow port p false (fun b n e =>
    let c := Packet.chunk p / 64
    let j := Packet.chunk p % 64
    let f := Packet.frag p
    let ec := b.chunkElems n c
    let w := b.wInForce n
    if !b.legChild n e || !(b.slot n).screed || decide (b.nchunks n ≤ c) || decide ((ec + 4095) / 4096 ≤ j)
        || !fragFits p (partFragLast ec w j) (partFragBytes ec w j f) then b.discardColl n p
    else if b.settled n c then b.dropDup n p
    else match b.blockFor n c with
    | none => b.discardColl n p
    | some x =>
      if bitOf ((legRec x e).frags.get j 0) f then b.dropDup n p
      else b.acceptFrag n e x j f (Packet.check p) (addPartBytes x.acc ec w j f (Packet.wire p)) mis)

/-- COLL_EXPONENTS (R187, R188): entries combined; a leg that still sends them after COLL_SCREED is sent it again. Entries at or beyond NCHUNKS
are ignored. DESIGN CHOICE: a packet that does not start at a multiple of 2,048 is discarded and counted in DISCARD, as one of a collective
without an exponent round is (log 147). -/
def takeExps (b : Blk) (port : Nat) (p : Packet) : Blk :=
  b.fromBelow port p false (fun b n e =>
    let c := Packet.chunk p
    if !b.collExp n || c % 2048 != 0 then b.discardColl n p
    else if b.nchunks n ≤ c then b
    else if (b.slot n).screed then b.screedLeg n e
    else
      let cnt := min (Packet.payloadBytes p / 2) (b.nchunks n - c)
      let b := b.modSlot n (fun s => { s with
        exps := (upto cnt).foldl (fun t j => t.set (c + j) (combineExp (t.get (c + j) 0x8000) (beNat (slice p.payload (2 * j) 2))) 0x8000) s.exps,
        expGot := s.expGot.set e (putBits (s.expGot.get e 0) (c / 2048) (c / 2048) 1) 0 })
      (b.tryUp n).tryScreed n)

/-! ## Control packets from below (R225) -/

/-- READY. -/
def takeReady (b : Blk) (port : Nat) (p : Packet) : Blk :=
  b.fromBelow port p false (fun b n e =>
    if !b.legChild n e then b.discardColl n p
    else if (b.slot n).screed then b.screedLeg n e
    else ((b.modSlot n (fun s => { s with readyLegs := addNew s.readyLegs e })).tryUp n).tryScreed n)

/-- PARAMS of JOIN_REPLY (R222). -/
def joinParams (b : Blk) (n : Nat) : List Byte :=
  beBytes 3 (b.nchunks n - 1) ++ leBytes 1 (b2n (b.collExp n)) ++ beBytes 2 (b.lastUnits n - 1) ++ leBytes 1 (b.win n - 1)
    ++ beBytes 3 (b.cfld n 8 32 16)

/-- JOIN. -/
def takeJoin (b : Blk) (port : Nat) (p : Packet) : Blk :=
  b.fromBelow port p false (fun b n e =>
    if b.legChild n e then b.discardColl n p
    else if bits (leAt p.payload 4 1) 2 0 ≠ b.cfld n 0 5 3 then b.ctlLeg n e 0x26 4 0xD 0 [] []
    else
      let b := b.modSlot n (fun s => { s with joined := addNew s.joined e })
      let b := b.ctlLeg n e 0x25 3 0 0 (b.joinParams n) []
      if (b.slot n).screed then b.screedLeg n e else b)

/-- FREED sent down with the current F. -/
def sendFreed (b : Blk) (n : Nat) : Blk := (b.noteSent n 2).collDown n (b.ctlDownPacket n 0x25 5 (b.lowOf n) [])

/-- DONE sent down. -/
def sendDone (b : Blk) (n : Nat) : Blk := (b.noteSent n 4).collDown n (b.ctlDownPacket n 0x25 6 0 [])

/-- The root moves F past every chunk that all legs have acknowledged; a chunk freed gives up its block (R225). -/
def advanceF : Nat → Nat → Blk → Nat → Blk
  | 0, _, b, _ => b
  | fuel + 1, f, b, n =>
    let ok := decide (f < b.nchunks n) && (match b.findBlock n f with | some x => x.result.isSome | none => false)
      && (b.legs n).all (fun e => ((b.slot n).acks.get f []).contains e)
    if ok then
      let b := (b.dropBlock n f).modSlot n (fun s => { s with acks := s.acks.set f [] [], resets := s.resets.set f 0 0 })
      advanceF fuel (f + 1) b n
    else ((b.setFld .sw (offColl n 0x18) 63 44 f).setFld .sw (offColl n 0x18) 43 24 f).modSlot n (fun s => { s with low := f })

/-- RESULT_ACK. -/
def takeResultAck (b : Blk) (port : Nat) (p : Packet) : Blk :=
  b.fromBelow port p true (fun b n e =>
    let c := Packet.chunk p
    if b.nchunks n ≤ c then b.discardColl n p
    else if b.isRoot n then
      let f := b.lowOf n
      if c < f then b
      else
        let b := b.modSlot n (fun s => { s with acks := s.acks.set c (addNew (s.acks.get c []) e) [] })
        let b := advanceF ((b.slot n).blocks.length + 1) f b n
        if b.lowOf n = f then b
        else
          let t := b.now .sw
          let b := (b.modSlot n (fun s => { s with progressAt := t })).sendFreed n
          if b.lowOf n = b.nchunks n ∧ (b.slot n).doneAt = none then (b.modSlot n (fun s => { s with doneAt := some t })).sendDone n else b
    else
      let b := b.modSlot n (fun s => { s with acks := s.acks.set c (addNew (s.acks.get c []) e) [] })
      if !(b.slot n).ackUp.contains c && (b.legs n).all (fun e => ((b.slot n).acks.get c []).contains e) then
        (b.modSlot n (fun s => { s with ackUp := addNew s.ackUp c })).ctlUp n 0x25 1 c
      else b)

/-- CLOSE_ACK. -/
def takeCloseAck (b : Blk) (port : Nat) (p : Packet) : Blk :=
  b.fromBelow port p true (fun b n e =>
    let b := b.modSlot n (fun s => { s with closeAcks := addNew s.closeAcks e })
    if !b.isRoot n && !(b.slot n).closeUp && (b.legs n).all (fun e => (b.slot n).closeAcks.contains e) then
      (b.modSlot n (fun s => { s with closeUp := true })).ctlUp n 0x25 7 0
    else b)

/-- A slot moves to DONE: its reservation is freed; STATUS and the lateness table stay (R225). -/
def slotDone (b : Blk) (n : Nat) : Blk :=
  let b := b.modSlot n (fun s => { s with blocks := [], reserved := 0 })
  (b.setSlotState n 4).collPend n

/-- The acknowledgement of DONE sent upward, once. -/
def doneUpward (b : Blk) (n : Nat) : Blk :=
  if b.isRoot n || (b.slot n).doneUp then b else (b.modSlot n (fun s => { s with doneUp := true })).ctlUp n 0x25 6 0

/-- The acknowledgement of DONE by a leg. -/
def takeDoneAck (b : Blk) (port : Nat) (p : Packet) : Blk :=
  b.fromBelow port p true (fun b n e =>
    if (b.slot n).doneAt = none then b.discardColl n p
    else
      let b := b.modSlot n (fun s => { s with doneAcks := addNew s.doneAcks e })
      if (b.legs n).all (fun e => (b.slot n).doneAcks.contains e) then (b.doneUpward n).slotDone n else b)

/-- RESULT_NACK (R233): relayed upward; the root answers with the named fragments. -/
def takeNack (b : Blk) (port : Nat) (p : Packet) : Blk :=
  b.atSlot port p (fun b n =>
    let ok := if b.memberLegs n then (b.legOf n port p).isSome else (b.legs n).any (fun e => b.legPort n e == port)
    if !ok then b.discardColl n p
    else if !b.isRoot n then b.passOn port p (fun b p => b.collUp n p)
    else match b.findBlock n (Packet.chunk p) with
    | none => b
    | some x =>
      match x.result with
      | none => b
      | some r =>
        let mask := beNat (slice p.payload 16 8)
        let ps := (b.resultPackets n x.chunk (Packet.src p) (Packet.member p) r).filter (fun q => bitOf mask (Packet.frag q))
        (b.forEach ps (fun b q => b.resultRouted q)).slotCount n 0 ps.length)

/-- CHUNK_FAIL (R231): forwarded up; at the root the chunk completes with CHECK_FAIL. -/
def takeFail (b : Blk) (port : Nat) (p : Packet) : Blk :=
  b.fromBelow port p false (fun b n e =>
    let c := Packet.chunk p
    if !b.legChild n e || decide (b.nchunks n ≤ c) then b.discardColl n p
    else if b.isRoot n && b.rounded n c then b
    else b.chunkFails n c)

/-! ## Packets from above (R190, R225, R231, R233, R238) -/

/-- COLL_SCREED below the root. -/
def takeScreed (b : Blk) (port : Nat) (p : Packet) : Blk :=
  b.fromAbove port p (fun b n =>
    let w := leAt p.payload 2 1
    let dt := leAt p.payload 3 1
    if w ≠ b.arithWidth n ∨ dt ≠ b.arithDtype n then b.discardColl n p
    else (b.recordScreed n (beNat (slice p.payload 0 2)) w dt).screedDown n)

/-- FREED below the root. -/
def takeFreed (b : Blk) (port : Nat) (p : Packet) : Blk :=
  b.fromAbove port p (fun b n =>
    let f := Packet.chunk p
    let b := b.modSlot n (fun s => { s with acks := s.acks.filter (fun e => decide (f ≤ e.1)), resets := s.resets.filter (fun e => decide (f ≤ e.1)),
                                            ackUp := s.ackUp.filter (fun c => decide (f ≤ c)) })
    b.collDown n (b.ctlDownPacket n 0x25 5 f []))

/-- Accumulators discarded: every block without a retained result. -/
def dropAccs (b : Blk) (n : Nat) : Blk := b.modSlot n (fun s => { s with blocks := s.blocks.filter (fun x => x.result.isSome) })

/-- A slot moves to CLOSING. -/
def toClosing (b : Blk) (n : Nat) : Blk :=
  if b.slotState n = 3 then b
  else
    let b := (b.dropAccs n).setSlotState n 3
    let b := b.setFlag .sw (offColl n 0x18) 10 true
    let t := b.now .sw
    (b.modSlot n (fun s => { s with closeAt := some t })).collPend n

/-- CLOSE below the root. -/
def takeClose (b : Blk) (port : Nat) (p : Packet) : Blk :=
  b.fromAbove port p (fun b n =>
    let b := (b.toClosing n).collDown n (b.ctlDownPacket n 0x26 3 (Packet.chunk p) (slice p.payload 16 16))
    if (b.slot n).closeUp then b.ctlUp n 0x25 7 0 else b)

/-- DONE below the root. -/
def takeDone (b : Blk) (port : Nat) (p : Packet) : Blk :=
  b.fromAbove port p (fun b n =>
    let t := b.now .sw
    let b := if (b.slot n).doneAt.isSome then b else b.modSlot n (fun s => { s with doneAt := some t })
    b.sendDone n)

/-- The legs that have not acknowledged a chunk. -/
def unacked (b : Blk) (n c : Nat) : List Nat := (b.legs n).filter (fun e => !((b.slot n).acks.get c []).contains e)

/-- COLL_RESULT below the root: replicated to the legs that have not acknowledged the chunk; where all have, the acknowledgement is
repeated. An answer to a RESULT_NACK is routed by its DST_NODE. -/
def takeResult (b : Blk) (port : Nat) (p : Packet) : Blk :=
  if Packet.dst p ≠ 16383 then
    match b.collArrive port p with
    | (false, b) => b
    | (true, b) => b.passOn port p (fun b p => b.internalSend srcColl p)
  else b.fromAbove port p (fun b n =>
    let c := Packet.chunk p
    if (b.slot n).ackUp.contains c then b.ctlUp n 0x25 1 c
    else b.passOn port p (fun b p => if ((b.slot n).acks.get c []).isEmpty then b.collDown n p else b.toLegs n (b.unacked n c) [p]))

/-- RECONTRIB from above: the chunk is reset here as well. -/
def takeRecontrib (b : Blk) (port : Nat) (p : Packet) : Blk :=
  b.fromAbove port p (fun b n => if leAt p.payload 1 1 = 0 ∨ b.nchunks n ≤ Packet.chunk p then b.discardColl n p
    else b.resetChunk n (Packet.chunk p))

/-! ## Timers (R225, R227, R229, R231, R233, R238) -/

/-- The CLOSE packet: its lowest unrounded chunk and the mask of those that follow. -/
def closePacket (b : Blk) (n : Nat) : Packet :=
  let span := (b.slot n).blocks.length + 1
  let l := ((upto span).find? (fun i => !b.rounded n (b.lowOf n + i))).getD span + b.lowOf n
  let mask := (upto 128).foldl (fun a i => if decide (l + i < b.nchunks n) && !b.rounded n (l + i) then a + 2 ^ i else a) 0
  b.ctlDownPacket n 0x26 3 l (beBytes 16 mask)

/-- The root closes the collective (R238). -/
def closeSlot (b : Blk) (n : Nat) : Blk :=
  let b := (b.toClosing n).noteSent n 3
  b.collDown n (b.closePacket n)

/-- Whether the switch is in supply hold. -/
def inSupplyHold (b : Blk) : Bool := b.flag .sw offStatus 12

/-- PROGRESS_TIMEOUT. -/
def progressOut (b : Blk) (n : Nat) : Blk :=
  if b.slotState n = 2 ∧ b.isRoot n = true ∧ b.inSupplyHold = false ∧ (b.slot n).doneAt = none
      ∧ (b.slot n).progressAt + b.collTimeout n ≤ b.now .sw then b.closeSlot n else b

/-- CLOSE_PHASE_END. -/
def closePhaseEnd (b : Blk) (n : Nat) : Blk :=
  match (b.slot n).closeAt with
  | none => b
  | some t0 =>
    if b.slotState n = 3 ∧ b.isRoot n = true ∧ (b.slot n).doneAt = none ∧ t0 + b.collTimeout n ≤ b.now .sw then
      let t := b.now .sw
      (b.modSlot n (fun s => { s with doneAt := some t })).sendDone n
    else b

/-- DONE_TIMEOUT. -/
def doneOut (b : Blk) (n : Nat) : Blk :=
  match (b.slot n).doneAt with
  | none => b
  | some t => if (b.slotState n = 2 ∨ b.slotState n = 3) ∧ t + b.collTimeout n ≤ b.now .sw then (b.doneUpward n).slotDone n else b

/-- Every T_R, what the phase of a slot resends: READY and exponents below the root; FREED, and to the legs that have not acknowledged them
CLOSE and DONE, at it (R225, R238). -/
def resendSlot (b : Blk) (n : Nat) : Blk :=
  let st := b.slotState n
  if !b.isRoot n then
    if st = 2 ∧ (b.slot n).screed = false then
      let b := if (b.slot n).readyUp && b.resendDue n 0 then b.sendReady n else b
      if (b.slot n).expUp && b.resendDue n 1 then b.sendExps n else b
    else b
  else
    let b := if st = 2 ∧ 0 < b.lowOf n ∧ b.resendDue n 2 = true then b.sendFreed n else b
    let b := if st = 3 ∧ (b.slot n).doneAt = none ∧ b.resendDue n 3 = true then
        (b.noteSent n 3).collDownTo n ((b.legs n).filter (fun e => !(b.slot n).closeAcks.contains e)) (b.closePacket n)
      else b
    if (st = 2 ∨ st = 3) ∧ (b.slot n).doneAt.isSome = true ∧ b.resendDue n 4 = true then
      (b.noteSent n 4).collDownTo n ((b.legs n).filter (fun e => !(b.slot n).doneAcks.contains e)) (b.ctlDownPacket n 0x25 6 0 [])
    else b

/-- FRAGMENT_REQUEST_TIMER. -/
def fragRequest (b : Blk) (n c e : Nat) : Blk :=
  match b.findBlock n c with
  | none => b
  | some x =>
    let r := legRec x e
    let got := r.frags.get 0 0
    let all := 2 ^ (b.chunkFragLast n c + 1) - 1
    if b.slotState n ≠ 2 ∨ b.legValid n e = false ∨ b.legChild n e = true ∨ got = 0 ∨ got = all ∨ b.now .sw < r.lastAt + tResend then b
    else
      let b := b.putBlock n { x with legs := x.legs.set e { r with lastAt := b.now .sw } { frags := [], doneAt := none, lastAt := 0 } }
      (b.slotCount n 0 1).recontribLeg n e c 0 (all - got)

/-- CHILD_STALL_TIMER: a chunk not complete yet of which a child has sent a part, and nothing for T_R, is reset. DEDUCED: since its accumulator is
discarded, every leg is asked again (R231, log 123). -/
def childStall (b : Blk) (n c e : Nat) : Blk :=
  match b.findBlock n c with
  | none => b
  | some x =>
    let r := legRec x e
    if b.slotState n ≠ 2 ∨ x.result.isSome = true ∨ b.legValid n e = false ∨ b.legChild n e = false ∨ r.frags.isEmpty = true ∨ b.legDone n x e = true
        ∨ b.now .sw < r.lastAt + tResend then b
    else b.resetChunk n c

/-- RESULT_RESEND_TIMER: the whole retained chunk toward each leg that has not acknowledged it. -/
def resultResend (b : Blk) (n c : Nat) : Blk :=
  match b.findBlock n c with
  | none => b
  | some x =>
    match x.result with
    | none => b
    | some r =>
      if !b.isRoot n || decide (b.slotState n ≠ 2 ∧ b.slotState n ≠ 3) || (b.slotState n == 3 && (b.slot n).doneAt.isSome)
          || decide (b.now .sw < r.sentAt + tResend) || !b.calMay 73 (b.collPart n) then b
      else
        let es := b.unacked n c
        let ps := b.resultPackets n c 16383 0 r
        let b := b.putBlock n { x with result := some { r with sentAt := b.now .sw } }
        (b.forEach es (fun b e => b.forEach ps (fun b p => b.resultTo (b.forLeg n e p) [b.legPort n e]))).slotCount n 0 (es.length * ps.length)

/-! ## Slot commands (R212-R214) -/

/-- 4 KiB granules of a slot's reservation. -/
def reservation (b : Blk) (n : Nat) : Nat :=
  let e := elemCount (b.arithDtype n) (b.chunkSize n)
  let acc := (e * partialSize (windowBits (b.arithWidth n)) + 4095) / 4096
  b.win n * acc + (if b.collExp n then (2 * b.nchunks n + 4095) / 4096 else 0)

/-- Whether the fields of a register hold no reserved encoding. -/
def regLegal (b : Blk) (off : Nat) : Bool := (fieldsAt .sw off).all (fun f => f.allows (b.fld .sw off f.hi f.lo))

/-- Whether a partial re-lath keeps a slot of its target from being admitted (R365). -/
def relathHolds (b : Blk) (n : Nat) : Bool :=
  match b.sw.lath.job with
  | none => false
  | some j => j.partial_ && (let lo := b.partFirstSlot j.idx
      (decide (lo ≤ n) && decide (n < lo + b.partNslots j.idx) && b.partValid j.idx)
        || (decide (j.newSlots.1 ≤ n) && decide (n < j.newSlots.1 + j.newSlots.2)))

/-- What ADMIT finds wrong with a slot: the lowest cause, 0 for nothing (R214). -/
def admitCause (b : Blk) (n : Nat) : Nat :=
  let ls := b.legs n
  let legOk := fun e => decide (b.legPort n e < 72) && (if b.memberLegs n then !b.legChild n e && decide (b.legIndex n e < b.nmemb n)
    else b.legChild n e && decide (b.legIndex n e < 72))
  let dup := ls.any (fun e => ls.any (fun g => e != g && b.legIndex n e == b.legIndex n g))
  let bad := !(b.regLegal (offColl n 0) && b.regLegal (offColl n 8) && b.regLegal (offColl n 0x38) && b.regLegal (offColl n 0x20))
    || (b.role n != 0 && decide (16384 < b.nchunks n)) || decide (b.chunkSize n < 256 * b.lastUnits n)
    || (b.arithDtype n == 5 && b.lastUnits n % 16 != 0) || ls.isEmpty || !ls.all legOk || dup
    || (b.isRoot n && b.collExp n != (b.cfld n 0x20 0 0 == 1))
  if bad then 2
  else match b.partIndex (b.collPart n) with
  | none => 3
  | some i =>
    if n < b.partFirstSlot i ∨ b.partFirstSlot i + b.partNslots i ≤ n ∨ b.pidAborted (b.collPart n) = true ∨ b.relathHolds n = true then 3
    else if b.partRmem i < b.reservation n then 4
    else if (upto 1024).any (fun m => m != n && b.slotState m != 0 && b.collIdOf m == b.collIdOf n) then 5
    else 0

/-- ADMIT. -/
def admitSlot (b : Blk) (n : Nat) : Blk :=
  if b.slotState n ≠ 0 then b.slotErr n 1
  else
    let c := b.admitCause n
    if c ≠ 0 then b.slotErr n c
    else
      let k := b.sw.admits + 1
      ((b.modSw (fun s => { s with admits := k })).setSlot n { Slot.idle with order := k }).setSlotState n 1

/-- SLOT_ADMITTED: the oldest waiting slot of its partition whose reservation fits becomes ACTIVE. -/
def slotAdmitted (b : Blk) (n : Nat) : Blk :=
  match b.partIndex (b.collPart n) with
  | none => b
  | some i =>
    let same := (upto 1024).filter (fun m => b.collPart m == b.collPart n)
    let held := same.foldl (fun a m => a + (b.slot m).reserved) 0
    let older := same.any (fun m => m != n && b.slotState m == 1 && decide ((b.slot m).order < (b.slot n).order))
    if b.slotState n ≠ 1 ∨ older = true ∨ b.partRmem i < held + b.reservation n then b
    else
      let t := b.now .sw
      let r := b.reservation n
      let b := b.setSlot n { Slot.idle with reserved := r, progressAt := t }
      let b := (b.putReg .sw (offColl n 0x28) 0).putReg .sw (offColl n 0x30) 0
      let b := b.forBelow 288 (fun b k => b.putReg .sw (offLate n 0 + 8 * k) 0)
      let b := ((b.setFld .sw (offColl n 0x18) 63 24 0).setFlag .sw (offColl n 0x18) 10 false).setSlotState n 2
      (b.tryUp n).tryScreed n

/-- CLOSE written to a slot. -/
def cmdClose (b : Blk) (n : Nat) : Blk := if b.slotState n = 2 ∧ b.isRoot n = true then b.closeSlot n else b.slotErr n 1

/-- A slot discarded without sending anything: FREE. -/
def freeSlot (b : Blk) (n : Nat) : Blk :=
  ((b.setSlot n Slot.idle).setFld .sw (offColl n 0x18) 63 24 0).setFlag .sw (offColl n 0x18) 10 false |>.setSlotState n 0

/-- RELEASE. -/
def cmdRelease (b : Blk) (n : Nat) : Blk := if b.slotState n = 0 then b.slotErr n 1 else b.freeSlot n

end Blk

/-! ## The reduction complex's turn (R373, R377, R426) -/

namespace Blk

/-- Whether a logical reduction engine is retired (R427). -/
def engRetired (b : Blk) (e : Nat) : Bool := if e < 64 then b.flag .sw offRengLo e else b.flag .sw offRengHi (e - 64)

/-- Whether a partition has no reduction engine in service (R426). -/
def noEngine (b : Blk) (pid : Nat) : Bool :=
  match b.partIndex pid with
  | some i => (upto 72).all (fun k => !bitOf (b.partEngines i) k || b.engRetired k)
  | none => false

/-- Whether a collective packet waits before the reduction complex: its partition's calendar slots are not open (R373), or it is to be added to an
active collective whose partition has no engine in service (R426). -/
def collWaits (b : Blk) (p : Packet) : Bool :=
  !b.calMay 73 (Packet.part p)
    || ((Packet.opcode p == 0x20 || Packet.opcode p == 0x21) && b.noEngine (Packet.part p)
      && (match b.slotFor p with | some n => b.slotState n == 2 | none => false))

/-- A collective packet acted on. -/
def collRun (b : Blk) (i : Instr) : Blk :=
  match i with
  | .collContrib port p mis => b.takeContrib port p mis
  | .collPartial port p mis => b.takePartial port p mis
  | .collExponents port p => b.takeExps port p
  | .ready port p => b.takeReady port p
  | .join port p => b.takeJoin port p
  | .resultAck port p => b.takeResultAck port p
  | .closeAck port p => b.takeCloseAck port p
  | .doneAck port p => b.takeDoneAck port p
  | .resultNack port p => b.takeNack port p
  | .chunkFail port p => b.takeFail port p
  | .collScreed port p => b.takeScreed port p
  | .freed port p => b.takeFreed port p
  | .close port p => b.takeClose port p
  | .done port p => b.takeDone port p
  | .collResult port p => b.takeResult port p
  | .recontrib port p => b.takeRecontrib port p
  | _ => b

end Blk

/-- The collective packet a command carries to the reduction complex. -/
def collPkt : Instr → Option Packet
  | .collContrib _ p _ => some p
  | .collPartial _ p _ => some p
  | .collExponents _ p => some p
  | .ready _ p => some p
  | .join _ p => some p
  | .resultAck _ p => some p
  | .closeAck _ p => some p
  | .doneAck _ p => some p
  | .resultNack _ p => some p
  | .chunkFail _ p => some p
  | .collScreed _ p => some p
  | .freed _ p => some p
  | .close _ p => some p
  | .done _ p => some p
  | .collResult _ p => some p
  | .recontrib _ p => some p
  | _ => none

namespace Blk

/-- Collective packets that waited acted on in order, as far as they may be now. -/
def collDrain (b : Blk) : Blk :=
  b.sw.waiting.foldl (fun b i => match collPkt i with
    | some p => if b.collWaits p then b.waitSw i else b.collRun i
    | none => b.waitSw i) (b.modSw (fun s => { s with waiting := [] }))

end Blk

/-! ## Meanings -/

/-- A collective packet, command `i`, with its opcode and CTL at the reduction complex of a switch that serves: acted on, or it waits. -/
def collCmd (port : Nat) (p : Packet) (op ctl : Nat) (i : Instr) (s : State) : Res :=
  s.onIf (hasPort .sw port) (fun b =>
    if !(b.serving .sw && Packet.opcode p == op && (ctl == 0 || leAt p.payload 0 1 == ctl)) then b
    else if b.collWaits p then b.waitSw i
    else (b.collRun i).collDrain)

/-- A timer of the switch's collectives. -/
def slotTimer (n : Nat) (b : Blk) (f : Blk → Blk) : Blk := if b.serving .sw && decide (n < 1024) then f b else b

/-- ADMIT (R212, R214). -/
def execSlotAdmit (n : Nat) (s : State) : Res := s.onIf (hasSlot n) (fun b => b.hostWrite .sw (fun b => b.admitSlot n))

/-- SLOT_ADMITTED (R214). -/
def execSlotAdmitted (n : Nat) (s : State) : Res := s.onIf (hasSlot n) (fun b => if b.serving .sw then b.slotAdmitted n else b)

/-- SLOT_CLOSE (R212, R238). -/
def execSlotClose (n : Nat) (s : State) : Res := s.onIf (hasSlot n) (fun b => b.hostWrite .sw (fun b => (b.cmdClose n).collDrain))

/-- SLOT_RELEASE (R212). -/
def execSlotRelease (n : Nat) (s : State) : Res := s.onIf (hasSlot n) (fun b => b.hostWrite .sw (fun b => (b.cmdRelease n).collDrain))

/-- COLL_CONTRIB (R228). -/
def execCollContrib (port : Nat) (p : Packet) (mis : Bool) (s : State) : Res := collCmd port p 0x20 0 (.collContrib port p mis) s

/-- COLL_PARTIAL (R193, R228). -/
def execCollPartial (port : Nat) (p : Packet) (mis : Bool) (s : State) : Res := collCmd port p 0x21 0 (.collPartial port p mis) s

/-- COLL_EXPONENTS (R187, R188). -/
def execCollExponents (port : Nat) (p : Packet) (s : State) : Res := collCmd port p 0x22 0 (.collExponents port p) s

/-- ACCUMULATOR_UE (R178, R231); an error that the ECC corrects is only counted (R177). -/
def execAccumulatorUe (c : ChunkRef) (corrected : Bool) (s : State) : Res :=
  s.on (fun b => slotTimer c.slot b (fun b =>
    if (b.findBlock c.slot c.chunk).isNone then b
    else if corrected then b.modSw (fun s => { s with accCe := s.accCe + 1 })
    else b.resetChunk c.slot c.chunk))

/-- READY (R225). -/
def execReady (port : Nat) (p : Packet) (s : State) : Res := collCmd port p 0x25 4 (.ready port p) s

/-- JOIN (R225). -/
def execJoin (port : Nat) (p : Packet) (s : State) : Res := collCmd port p 0x25 2 (.join port p) s

/-- RESULT_ACK (R225). -/
def execResultAck (port : Nat) (p : Packet) (s : State) : Res := collCmd port p 0x25 1 (.resultAck port p) s

/-- CLOSE_ACK (R238). -/
def execCloseAck (port : Nat) (p : Packet) (s : State) : Res := collCmd port p 0x25 7 (.closeAck port p) s

/-- DONE_ACK (R225). -/
def execDoneAck (port : Nat) (p : Packet) (s : State) : Res := collCmd port p 0x25 6 (.doneAck port p) s

/-- RESULT_NACK (R233). -/
def execResultNack (port : Nat) (p : Packet) (s : State) : Res := collCmd port p 0x26 1 (.resultNack port p) s

/-- CHUNK_FAIL (R231). -/
def execChunkFail (port : Nat) (p : Packet) (s : State) : Res := collCmd port p 0x26 2 (.chunkFail port p) s

/-- COLL_SCREED (R190). -/
def execCollScreed (port : Nat) (p : Packet) (s : State) : Res := collCmd port p 0x23 0 (.collScreed port p) s

/-- FREED (R225). -/
def execFreed (port : Nat) (p : Packet) (s : State) : Res := collCmd port p 0x25 5 (.freed port p) s

/-- CLOSE (R238). -/
def execClose (port : Nat) (p : Packet) (s : State) : Res := collCmd port p 0x26 3 (.close port p) s

/-- DONE (R225). -/
def execDone (port : Nat) (p : Packet) (s : State) : Res := collCmd port p 0x25 6 (.done port p) s

/-- COLL_RESULT (R233). -/
def execCollResult (port : Nat) (p : Packet) (s : State) : Res := collCmd port p 0x24 0 (.collResult port p) s

/-- RECONTRIB (R231). -/
def execRecontrib (port : Nat) (p : Packet) (s : State) : Res := collCmd port p 0x27 1 (.recontrib port p) s

/-- PROGRESS_TIMEOUT (R227, R238). -/
def execProgressTimeout (n : Nat) (s : State) : Res := s.onIf (hasSlot n) (fun b => slotTimer n b (fun b => (b.progressOut n).collDrain))

/-- CLOSE_PHASE_END (R238). -/
def execClosePhaseEnd (n : Nat) (s : State) : Res := s.onIf (hasSlot n) (fun b => slotTimer n b (fun b => b.closePhaseEnd n))

/-- DONE_TIMEOUT (R225). -/
def execDoneTimeout (n : Nat) (s : State) : Res := s.onIf (hasSlot n) (fun b => slotTimer n b (fun b => b.doneOut n))

/-- FRAGMENT_REQUEST_TIMER (R229). -/
def execFragmentRequestTimer (c : ChunkRef) (leg : Nat) (s : State) : Res :=
  s.on (fun b => slotTimer c.slot b (fun b => b.fragRequest c.slot c.chunk leg))

/-- CHILD_STALL_TIMER (R231). -/
def execChildStallTimer (c : ChunkRef) (leg : Nat) (s : State) : Res :=
  s.on (fun b => slotTimer c.slot b (fun b => b.childStall c.slot c.chunk leg))

/-- RESULT_RESEND_TIMER (R233). -/
def execResultResendTimer (c : ChunkRef) (s : State) : Res := s.on (fun b => slotTimer c.slot b (fun b => b.resultResend c.slot c.chunk))

end Sys2Proof.Machine
end

