-- ==== Sys2Proof/Machine/Members.lean ====
section
/-! DEFINITION. Members of collectives at the end point: CONTRIB, joining, exponents, sending chunks, results, crediting, closing (R144, R149,
R167, R182, R184-R187, R190, R196, R197, R218-R225, R229-R239, R541). -/

namespace Sys2Proof.Machine

open Sys2Proof

/-! ## Chunks of a member (R217, R218, R222) -/

namespace CollEnt

/-- Bytes of a whole chunk. -/
def chunkSize (x : CollEnt) : Nat := 2 ^ (x.code + 14)

/-- Bytes of chunk c. -/
def chunkLen (x : CollEnt) (p : CollParams) (c : Nat) : Nat := if c + 1 = p.nchunks then 256 * p.lastUnits else x.chunkSize

/-- FRAG_LAST of chunk c. -/
def fragLast (x : CollEnt) (p : CollParams) (c : Nat) : Nat := (x.chunkLen p c + 4095) / 4096 - 1

/-- Bytes of fragment f of chunk c. -/
def fragLen (x : CollEnt) (p : CollParams) (c f : Nat) : Nat := min 4096 (x.chunkLen p c - 4096 * f)

/-- Whether CLOSE named chunk c as not rounded (R238). -/
def unrounded (x : CollEnt) (c : Nat) : Bool := x.closed && (x.unround.contains c || decide (x.unroundFrom ≤ c))

/-- Whether a descriptor's chunks fit the collective: the first three rules of R218. -/
def fits (x : CollEnt) (p : CollParams) (first len : Nat) : Bool :=
  let cs := x.chunkSize
  let count := (len + cs - 1) / cs
  len != 0 && decide (first + count ≤ p.nchunks) && (!p.exp || decide (first = 0 ∧ count = p.nchunks))
    && (if first + count = p.nchunks then len == (count - 1) * cs + 256 * p.lastUnits else len % cs == 0)

end CollEnt

namespace Blk

/-! ## Packets of a member (R222) -/

/-- A packet under another KEY_GEN. -/
def rekey (p : Packet) (g : Nat) : Packet :=
  let p := Packet.setH p 232 232 g
  Packet.setH p 31 0 (hcrcOf p.hdr.toNat (!Packet.isLong p) p.payload)

/-- A collective packet sent in its plane under the current generation, or held while the partition has no current key slot. -/
def collTx (b : Blk) (plane : Nat) (p : Packet) : Blk :=
  let k := b.pidKey .ep (Packet.part p)
  if k.cur.isNone then b.modEp (fun e => { e with collHeld := e.collHeld ++ [{ plane := plane, pkt := p }] })
  else b.epSend plane (rekey p k.g)

/-- Held packets of a partition that has a key again. -/
def collFlush (b : Blk) (pid : Nat) : Blk :=
  let due := b.ep.collHeld.filter (fun h => Packet.part h.pkt == pid)
  let b := b.modEp (fun e => { e with collHeld := e.collHeld.filter (fun h => !(Packet.part h.pkt == pid)) })
  b.forEach due (fun b h => b.collTx h.plane h.pkt)

/-- A packet of a member: its node upward, no destination node, its context and epoch. -/
def memberPacket (b : Blk) (x : CollEnt) (op tc chunk frag fragLast : Nat) (long : Bool) (payload : List Byte) (tag : Option Nat := none) : Packet :=
  mkPacket { tc := tc, opcode := op, part := b.ctxPart x.ctx, plane := x.plane, dst := 16383, src := b.ep.node, ctx := x.ctx,
             epoch := b.ctxEpoch x.ctx, low := lowColl x.collId chunk x.member frag fragLast 0 } long payload tag

/-- A control packet of a member. -/
def memberCtl (b : Blk) (x : CollEnt) (op ctl chunk : Nat) (params mask : List Byte) : Blk :=
  b.collTx x.plane (b.memberPacket x op 0 chunk 0 0 false (ctlPayload ctl 0 params mask))

def sendJoin (b : Blk) (x : CollEnt) : Blk := b.memberCtl x 0x25 2 0 (leBytes 1 x.code) []

def sendAck (b : Blk) (x : CollEnt) (c : Nat) : Blk := b.memberCtl x 0x25 1 c [] []

/-! ## Addresses of a member's chunks (R132, R144, R152) -/

end Blk

/-- A run of virtual addresses: bytes that wait for a translation, a status, or runs of fabric offsets. -/
inductive RunAddr where
  | wait (va : Nat)
  | bad (st : Nat)
  | runs (l : List (Nat × Nat))
  deriving DecidableEq, Repr

namespace Blk

/-- Where one address of a collective's source or destination is translated to: by the extents of the running descriptor, else by the
translation cache. -/
def collXlat (b : Blk) (n : Nat) (d : Option ProgDesc) (dst : Bool) (va : Nat) : Option Nat :=
  match d.bind (fun d => b.extAt n d dst va) with
  | some e => if e.fault.isSome then none else some (e.fabric + (va - e.va))
  | none => (b.atcFind (b.pasidOf n) va (!dst) dst).map (fun t => t.fabric + (va - t.va))

/-- Where the bytes of a run lie in the end point's own memory. -/
def runAddr (b : Blk) (n : Nat) (d : Option ProgDesc) (dst : Bool) (va len : Nat) : RunAddr :=
  let ps := longPieces (len / 4096 + 2) va (va + len)
  match ps.find? (fun p => (b.collXlat n d dst p.1).isNone) with
  | some p => .wait p.1
  | none =>
    let at_ := ps.map (fun p => ((b.collXlat n d dst p.1).getD 0, p.2.1))
    let st := firstStatus (at_.map (fun a =>
      if 2 ^ 58 ≤ a.1 ∨ addrNode a.1 ≠ b.ep.node then 0xD
      else if !b.granted n (addrNode a.1) (addrOff a.1) a.2 then 3
      else match b.hwinOf (addrOff a.1) a.2 with
        | some w => if b.fld .ep (offHwinCtl w) 55 44 = b.ctxPart n then 0 else 4
        | none => 4))
    if st ≠ 0 then .bad st else .runs (at_.map (fun a => (addrOff a.1, a.2)))

/-- A translation a CONTRIB needs: a fault held with its address takes effect while the program runs, otherwise ATS is asked (R152, R157). -/
def collNeed (b : Blk) (n ring va : Nat) (dst : Bool) : Blk :=
  match (b.descAt n ring).bind (fun d => (b.extAt n d dst va).bind (fun e => e.fault)) with
  | some (status, cause, time) =>
    if (b.ctxState n = 2 ∨ b.ctxState n = 3) ∧ (b.ctx n).faulted.isNone = true then
      let r : Req := { Req.blank with ctx := n, why := .prog ring, va := some va, op := if dst then 2 else 1 }
      b.takeFault n (b.faultRecord r status cause time) none
    else b
  | none => b.atsSend n va (!dst) dst 0

/-! ## The running CONTRIB -/

/-- The CONTRIB of an entry that its context's program is at. -/
def running (b : Blk) (x : CollEnt) : Option ProgDesc :=
  match (b.ctx x.ctx).prog with
  | d :: _ => if d.begun = true ∧ d.type = 4 ∧ d.planeNo = x.plane ∧ d.collId = x.collId then some d else none
  | [] => none

/-- The running CONTRIB of an entry ends with a status; its chunks leave the list of those to send. -/
def endRunning (b : Blk) (x : CollEnt) (st : Nat) : Blk := if (b.running x).isSome then b.headEnds x.ctx st else b

/-- Chunks inside the window [.., F_m + WIN) that are covered and not sent yet wait to be sent (R221). -/
def fillWindow (b : Blk) (id : Nat) : Blk :=
  b.updColl id (fun x =>
    match x.params, x.screed with
    | some p, some _ =>
      if x.closed then x
      else
        let cs := (upto p.win).map (fun i => x.fm + i)
        let new := cs.filter (fun c => (x.descOf c).isSome && !(x.chunk c).sent && !(x.toSend.any (fun t => t.1 == c)))
        { x with toSend := x.toSend ++ new.map (fun c => (c, 0)) }
    | _, _ => x)

/-- A CONTRIB with nothing to send holds no engine (R219); one whose chunks are all sent has issued its last request (R142). -/
def restContrib (b : Blk) (id : Nat) : Blk :=
  match b.findColl id with
  | none => b
  | some x =>
    match b.running x with
    | none => b
    | some d =>
      if x.params.isSome && (upto d.count).all (fun i => (x.chunk (d.firstChunk + i)).sent) then b.progEnd x.ctx
      else if x.toSend.isEmpty then b.leaveEngine x.ctx
      else b

/-! ## CONTRIB begins (R144, R182, R218, R219) -/

/-- Rules of a CONTRIB's own fields. -/
def contribOk (d : ProgDesc) : Bool :=
  bits (d.q 0) 46 32 == 0 && vaOk d.src && vaOk d.dst && decide (d.chunkCode ≤ 4) && bits (d.q 3) 63 59 == 0 && zeroFrom d 4
    && decide (d.dtype ≤ 5) && d.length != 0 && d.length % (if d.dtype = 5 then 4096 else elemSize d.dtype) == 0
    && !overlaps d.src d.length d.dst d.length

/-- Whether a plane is usable for a CONTRIB (R140). -/
def collPlaneOk (b : Blk) (n plane : Nat) : Bool :=
  (match (b.ctx n).desc with | some c => bitOf c.planeMask plane | none => false) && b.portUp .ep plane

/-- What an entry keeps of a CONTRIB. -/
def contribRec (d : ProgDesc) : ContribRec :=
  { first := d.firstChunk, count := d.count, src := d.src, dst := d.dst, len := d.length, cplEn := d.cplEn, tally := d.tally, dtype := d.dtype }

/-- A CONTRIB taken into an entry and begun; its chunks go out within the window. -/
def coverContrib (b : Blk) (n id : Nat) (d : ProgDesc) : Blk :=
  let b := b.updColl id (fun x => { x with descs := x.descs ++ [contribRec d], nextChunk := d.firstChunk + d.count })
  ((b.markBegun n 0).fillWindow id).restContrib id

/-- A chunk's ending without a result: HOME_ERROR where its source could not be read, MEMBER_ABSENT otherwise (R235, R238). -/
def absent (x : CollEnt) (c : Nat) : Nat := if (x.chunk c).unread then 0xC else 0xB

/-- CONTRIB. -/
def beginContrib (b : Blk) (n : Nat) (d : ProgDesc) : Blk :=
  if !contribOk d || !b.tallyOk n d then b.headEnds n 0xD
  else if !b.collPlaneOk n d.planeNo then b.headEnds n 6
  else match b.collOf n d with
  | none =>
    if d.firstChunk ≠ 0 then b.headEnds n 0xD
    else if 256 ≤ b.ep.colls.length then b
    else
      let id := b.ep.nextColl
      let t := b.now .ep
      let x : CollEnt := {
        id := id, ctx := n, plane := d.planeNo, collId := d.collId, member := d.member, code := d.chunkCode, params := none, screed := none, fm := 0,
        closed := false, descs := [], chunks := [], unround := [], unroundFrom := 0, toSend := [], recon := [], nextChunk := 0, lastPkt := t,
        resendAt := t }
      let pid := b.ctxPart n
      let b := b.modEp (fun e => { e with
        colls := e.colls ++ [x], nextColl := id + 1,
        gone := e.gone.filter (fun g => !(g.plane == x.plane && g.collId == x.collId && g.part == pid)) })
      (b.coverContrib n id d).sendJoin x
  | some x =>
    if d.chunkCode ≠ x.code ∨ d.firstChunk ≠ x.nextChunk ∨ (match x.params with | some p => !x.fits p d.firstChunk d.length | none => false) = true
        ∨ (match x.screed with | some (_, _, dt) => dt != d.dtype | none => false) = true then b.headEnds n 0xD
    else if x.params.isNone && !x.closed then b
    else
      let b := b.coverContrib n x.id d
      if x.closed then
        let b := b.forBelow d.count (fun b i =>
          let c := d.firstChunk + i
          if x.unrounded c then b.creditChunk x.id c (absent x c) else b)
        b.endRunning x 0xB
      else b

/-! ## Arrival at a member (R223, R541) -/

/-- Entries a collective packet matches; one that names a member matches only that member's. -/
def collMatch (b : Blk) (p : Packet) (named : Bool) : List CollEnt :=
  b.ep.colls.filter (fun x => x.plane == Packet.plane p && x.collId == Packet.collId p && b.ctxPart x.ctx == Packet.part p
    && (!named || x.member == Packet.member p))

/-- Whether a packet belongs to a collective whose context was aborted (R167), whatever has become of the context since. -/
def collGone (b : Blk) (p : Packet) : Bool :=
  b.ep.gone.any (fun g => g.plane == Packet.plane p && g.collId == Packet.collId p && g.part == Packet.part p)

/-- The acknowledgement an end point without a matching entry answers with: CTL (R223, R233). -/
def answerUnmatched (b : Blk) (port : Nat) (p : Packet) (ctl chunk : Nat) : Blk :=
  let q := mkPacket { tc := 0, opcode := 0x25, part := Packet.part p, plane := Packet.plane p, dst := 16383, src := b.ep.node,
                      low := lowColl (Packet.collId p) chunk (Packet.member p) 0 0 0 } false (ctlPayload ctl 0 [] [])
  b.collTx port q

end Blk

/-- A collective packet at an end-point port, handed to each entry it matches; `un` is what an unmatched one of a live context does. -/
def State.atMember (s : State) (port : Nat) (p : Packet) (named : Bool) (f : State → Nat → State) (un : Blk → Blk) : State :=
  match s.b.arrive port p (s.b.mine p || Packet.dst p == 16383) with
  | (false, b) => { s with b := b }
  | (true, b) =>
    let b := b.when_ (b.keyOk .ep (Packet.part p) (Packet.keyGen p)) (fun b => b.noteKey .ep (Packet.part p) (Packet.keyGen p))
    let es := b.collMatch p named
    if es.isEmpty then { s with b := if b.collGone p then b.otherDrop .ep port else un b }
    else
      let t := b.now .ep
      es.foldl (fun s x => f { s with b := s.b.updColl x.id (fun x => { x with lastPkt := t }) } x.id) { s with b := b }

/-! ## Source and destination bytes -/

namespace State

/-- Bytes of runs of the end point's own memory, and whether a line that holds one of them is uncorrectable. -/
def readRuns (s : State) (l : List (Nat × Nat)) : List Byte × Bool :=
  (l.flatMap (fun r => s.memRead r.1 r.2), l.any (fun r => (Blk.linesOf r.1 r.2).any (fun k => s.b.ep.badMem.contains k)))

/-- The packet of a contribution fragment (R184, R196, R197). -/
def contribPacket (b : Blk) (x : CollEnt) (p : CollParams) (dtype : Nat) (q : Int) (w c f : Nat) (bytes : List Byte) : Packet :=
  let tag := residueTag ((elemsOf dtype f bytes).map (fun e => (e.1, imageSum w (toImage q w e.2))))
  b.memberPacket x 0x20 4 c f (x.fragLast p c) true bytes (some tag)

/-- First source and destination byte of a fragment, and its bytes. -/
def fragAt (x : CollEnt) (p : CollParams) (d : ContribRec) (c f : Nat) : Nat × Nat × Nat :=
  let o := (c - d.first) * x.chunkSize + 4096 * f
  (d.src + o, d.dst + o, x.fragLen p c f)

/-- One fragment of a chunk sent, read through the end point's own home; one whose source cannot be read is not sent (R235). -/
def sendFrag (s : State) (x : CollEnt) (p : CollParams) (d : ContribRec) (pd : Option ProgDesc) (q : Int) (w c f : Nat) : State :=
  let (va, _, len) := fragAt x p d c f
  match s.b.runAddr x.ctx pd false va len with
  | .runs l =>
    let (bytes, bad) := s.readRuns l
    if bad then { s with b := s.b.updColl x.id (fun x => x.setChunk c { (x.chunk c) with unread := true }) }
    else { s with b := s.b.collTx x.plane (contribPacket s.b x p d.dtype q w c f bytes) }
  | _ => s

/-- What a fragment's source and destination still need before it is sent: a translation, or the status that ends the descriptor. -/
def fragNeeds (b : Blk) (x : CollEnt) (p : CollParams) (d : ContribRec) (pd : Option ProgDesc) (c f : Nat) : Option (Nat × Bool) ⊕ Nat :=
  let (va, dst, len) := fragAt x p d c f
  match b.runAddr x.ctx pd false va len, b.runAddr x.ctx pd true dst len with
  | .bad st, _ => .inr st
  | .wait va, _ => .inl (some (va, false))
  | _, .bad st => .inr st
  | _, .wait va => .inl (some (va, true))
  | .runs _, .runs _ => .inl none

/-- The fragments a RECONTRIB asks for, sent; a chunk whose source could not be read is answered with nothing (R229, R231, R235). -/
def resendFrags (s : State) (x : CollEnt) (p : CollParams) (d : ContribRec) (q : Int) (w c mask : Nat) : State :=
  if (x.chunk c).unread then s
  else (upto (x.fragLast p c + 1)).foldl (fun s f => if bitOf mask f then s.sendFrag x p d none q w c f else s) s

/-- A source address without a translation among the fragments a RECONTRIB asks for. -/
def reconWaits (b : Blk) (x : CollEnt) (p : CollParams) (d : ContribRec) (c mask : Nat) : Option Nat :=
  (upto (x.fragLast p c + 1)).findSome? (fun f =>
    let (va, _, len) := fragAt x p d c f
    if !bitOf mask f then none
    else match b.runAddr x.ctx none false va len with
    | .wait va => some va
    | _ => none)

/-! ## CHUNK_SEND (R221, R222, R235) -/

/-- The fragments asked for while the context was away. -/
def sendRecon (s : State) (x : CollEnt) (p : CollParams) (q : Int) (w c mask : Nat) : State :=
  match x.descOf c with
  | none => { s with b := s.b.updColl x.id (fun x => { x with recon := x.recon.erase c }) }
  | some d =>
    match reconWaits s.b x p d c mask with
    | some va => { s with b := s.b.atsSend x.ctx va true false 0 }
    | none =>
      let s := s.resendFrags x p d q w c mask
      { s with b := s.b.updColl x.id (fun x => { x with recon := x.recon.erase c }) }

/-- A chunk whose last fragment has been sent. -/
def chunkSent (b : Blk) (x : CollEnt) (c : Nat) : Blk :=
  (b.updColl x.id (fun x => { (x.setChunk c { (x.chunk c) with sent := true }) with toSend := x.toSend.filter (fun t => !(t.1 == c)) })).restContrib x.id

/-- The next chunk of the window sent, from fragment f on, as far as its addresses are translated; what is left goes out with a later
CHUNK_SEND, and from fragment 0 again after a pre-emption between (R163, R235, log 59). -/
def sendChunk (s : State) (x : CollEnt) (p : CollParams) (d : ContribRec) (q : Int) (w ring c : Nat) : Nat → Nat → State
  | 0, _ => { s with b := chunkSent s.b x c }
  | fuel + 1, f =>
    let (va, dst, len) := fragAt x p d c f
    let b := (s.b.reachVa x.ctx ring false va).reachVa x.ctx ring true dst
    let pd := b.descAt x.ctx ring
    match fragNeeds b x p d pd c f with
    | .inr st => { s with b := b.headEnds x.ctx st }
    | .inl (some (va, dst)) =>
      let b := b.updColl x.id (fun x => { x with toSend := x.toSend.map (fun t => if t.1 == c then (c, f) else t) })
      { s with b := b.collNeed x.ctx ring va dst }
    | .inl none =>
      let s := ({ s with b := b.updDesc x.ctx ring (fun d => { d with bytes := d.bytes + len }) }).sendFrag x p d pd q w c f
      s.sendChunk x p d q w ring c fuel (f + 1)

/-- One attempt to send of an entry: requests recorded while the context was away first, then the next chunk of the running CONTRIB, whose
context runs on an engine. -/
def chunkSend (s : State) (id : Nat) : State :=
  match s.b.findColl id with
  | none => s
  | some x =>
    match x.params, x.screed with
    | some p, some (q, w, _) =>
      let st := s.b.ctxState x.ctx
      let c := s.b.ctx x.ctx
      if x.closed || (s.b.pidKey .ep (s.b.ctxPart x.ctx)).cur.isNone || !s.b.portUp .ep x.plane then s
      else match x.recon with
      | (k, mask) :: _ => if decide (2 ≤ st) && decide (st ≤ 5) then s.sendRecon x p q w k mask else s
      | [] =>
        match s.b.running x, x.toSend with
        | some d, (k, f) :: _ =>
          match x.descOf k with
          | some r =>
            if (st = 2 ∨ (st = 3 ∧ c.stop = 1 ∧ f ≠ 0)) ∧ c.engine.isSome = true ∧ c.faulted.isNone = true then
              s.sendChunk x p r q w d.ring k (x.fragLast p k + 1 - f) f
            else s
          | none => s
        | _, _ => s
    | _, _ => s

/-! ## Exponents (R187, R225) -/

/-- The entries of the chunks from 2048 k on and whether all could be read; none while a translation is missing. -/
def memberEntries (s : State) (x : CollEnt) (p : CollParams) (d : ContribRec) (k : Nat) : List (Nat × List Nat × Bool) :=
  let cnt := min 2048 (p.nchunks - 2048 * k)
  (upto cnt).map (fun i =>
    let c := 2048 * k + i
    match s.b.runAddr x.ctx (s.b.running x) false (d.src + c * x.chunkSize) (x.chunkLen p c) with
    | .runs l =>
      let (bytes, bad) := s.readRuns l
      (c, [chunkExp (elemsOf d.dtype 0 bytes)], bad)
    | _ => (c, [], false))

/-- One exponent packet, once every chunk it speaks of can be read. -/
def sendExpPacket (s : State) (x : CollEnt) (p : CollParams) (d : ContribRec) (k : Nat) : State :=
  let es := s.memberEntries x p d k
  let s := { s with b := s.b.forEach es (fun b e => if e.2.2 then b.updColl x.id (fun x => x.setChunk e.1 { (x.chunk e.1) with unread := true }) else b) }
  if es.any (fun e => e.2.2 || e.2.1.isEmpty) then s
  else
    let l := es.flatMap (fun e => e.2.1)
    let long := decide (16 < l.length)
    let n := if long then (l.length + 127) / 128 * 128 else l.length
    let payload := (upto n).flatMap (fun i => beBytes 2 (l.getD i 0x8000))
    { s with b := s.b.collTx x.plane (s.b.memberPacket x 0x22 4 (2048 * k) 0 0 long payload) }

/-- The exponent round of a member: translations asked for where they lack, then its packets; a source that cannot be used ends the
descriptor. -/
def sendExponents (s : State) (id : Nat) : State :=
  match s.b.findColl id with
  | none => s
  | some x =>
    match x.params, s.b.running x, x.descOf 0 with
    | some p, some pd, some d =>
      if !p.exp || x.screed.isSome || x.closed then s
      else
        let addr := (upto p.nchunks).map (fun c => s.b.runAddr x.ctx (some pd) false (d.src + c * x.chunkSize) (x.chunkLen p c))
        match addr.findSome? (fun a => match a with | .bad st => some st | _ => none) with
        | some st => { s with b := s.b.headEnds x.ctx st }
        | none =>
          match addr.findSome? (fun a => match a with | .wait va => some va | _ => none) with
          | some va => { s with b := (s.b.reachVa x.ctx pd.ring false va).collNeed x.ctx pd.ring va false }
          | none =>
            let t := s.b.now .ep
            let s := { s with b := s.b.updColl id (fun x => { x with resendAt := t }) }
            (upto ((p.nchunks + 2047) / 2048)).foldl (fun s k => s.sendExpPacket x p d k) s
    | _, _, _ => s

/-! ## JOIN_REPLY, JOIN_REFUSE, COLL_SCREED (R190, R218, R220) -/

/-- PARAMS of a JOIN_REPLY (R222). -/
def joinReplyParams (p : Packet) : CollParams :=
  let at_ := fun o n => beNat (slice p.payload o n)
  { nchunks := at_ 4 3 % 2 ^ 20 + 1, exp := at_ 7 1 % 2 == 1, lastUnits := at_ 8 2 + 1, win := at_ 10 1 + 1, timeout := at_ 11 3 % 2 ^ 17 }

/-- JOIN_REPLY at an entry: the first one is taken; the CONTRIB running is held to the rules of R218. -/
def takeJoinReply (s : State) (id : Nat) (pr : CollParams) : State :=
  match s.b.findColl id with
  | none => s
  | some x =>
    if x.params.isSome then s
    else
      let b := s.b.updColl id (fun x => { x with params := some pr })
      match b.running x with
      | none => { s with b := b }
      | some d =>
        if !x.fits pr d.firstChunk d.length then
          { s with b := (b.headEnds x.ctx 0xD).updColl id (fun x => { x with descs := [], toSend := [] }) }
        else
          let b := (b.fillWindow id).restContrib id
          if pr.exp then ({ s with b := b }).sendExponents id else { s with b := b }

end State

namespace Blk

/-- JOIN_REFUSE at an entry. -/
def takeJoinRefuse (b : Blk) (id st : Nat) : Blk :=
  match b.findColl id with
  | none => b
  | some x => ((b.endRunning x st).creditRest id st).dropColl id

/-- COLL_SCREED at an entry: Q, W and DTYPE are taken once; a CONTRIB of another DTYPE ends. -/
def takeMemberScreed (b : Blk) (id : Nat) (q : Int) (w dt : Nat) : Blk :=
  match b.findColl id with
  | none => b
  | some x =>
    if x.screed.isSome then b
    else
      let b := b.updColl id (fun x => { x with screed := some (q, w, dt) })
      match b.running x with
      | some d =>
        if d.dtype ≠ dt then (b.headEnds x.ctx 0xD).updColl id (fun x => { x with descs := x.descs.filter (fun r => decide (r.first + r.count ≤ d.firstChunk)), toSend := [] })
        else (b.fillWindow id).restContrib id
      | none => b.fillWindow id

end Blk

/-! ## RECONTRIB (R229, R231) -/

/-- RECONTRIB at an entry: what has been sent of the chunk is sent again; a context that is not resident records it. -/
def State.takeMemberRecontrib (s : State) (id c arg mask : Nat) : State :=
  match s.b.findColl id with
  | none => s
  | some x =>
    match x.params, x.screed, x.descOf c with
    | some p, some (q, w, _), some d =>
      let m := x.chunk c
      let begun := m.sent || x.toSend.any (fun t => t.1 == c && t.2 != 0)
      if x.closed || !begun || (arg == 0 && m.status.isSome) then s
      else
        let st := s.b.ctxState x.ctx
        let here := decide (2 ≤ st) && decide (st ≤ 5) && (s.b.pidKey .ep (s.b.ctxPart x.ctx)).cur.isSome
        let note := fun (s : State) => { s with b := s.b.updColl id (fun x => { x with recon := x.recon.insert c (x.recon.get c 0 ||| mask) }) }
        if !here then note s
        else match State.reconWaits s.b x p d c mask with
        | some va => note { s with b := s.b.atsSend x.ctx va true false 0 }
        | none => s.resendFrags x p d q w c mask
    | _, _, _ => s

/-! ## Results (R232-R234) -/

namespace State

/-- Bytes of a result given to the end point's own home, run by run: whether all were taken, and the accesses they wait for. -/
def writeRuns (s : State) (l : List (Nat × Nat)) (bytes : List Byte) : Bool × List Nat × State :=
  let pk : Packet := { hdr := 0, payload := [], tail := 0 }
  let (ok, _, ids, s) := l.foldl (fun (a : Bool × List Byte × List Nat × State) r =>
    let (ok, rest, ids, s) := a
    let hop : HomeOp := .write r.1 (rest.take r.2) false
    match s.epCheck hop { errs := [], moved := [] } with
    | (0, s) =>
      (ok, rest.drop r.2, ids ++ [s.b.ep.home.nextId], { s with b := (s.b.fcDropBytes s.b.ep.node r.1 r.2).addPend {
        id := 0, key := Packet.stream pk, seq := 0, pkt := pk, port := 0, status := 0, data := [], ucie := true, snoops := [],
        expire := s.b.time64 .ep + 2 * lifetime64 0, isLocal := false, addDir := none, own := some 0, hop := hop } })
    | (_, s) => (false, rest.drop r.2, ids, s)) (true, bytes, [], s)
  (ok, ids, s)

/-- A good fragment written to its place through the end point's own home (R145, R232); while its address has no translation it is held. -/
def writeFrag (s : State) (id c f : Nat) (bytes : List Byte) : State :=
  match s.b.findColl id with
  | none => s
  | some x =>
    match x.descOf c with
    | none => s
    | some d =>
      let hold := fun (s : State) => { s with b := s.b.updColl id (fun x =>
        let m := x.chunk c
        x.setChunk c { m with held := m.held.filter (fun h => !(h.1 == f)) ++ [(f, bytes)] }) }
      let va := d.dst + (c - d.first) * x.chunkSize + 4096 * f
      match s.b.runAddr x.ctx none true va bytes.length with
      | .wait va => hold { s with b := s.b.atsSend x.ctx va false true 0 }
      | .bad _ => s
      | .runs l =>
        if 4096 ≤ s.b.ep.snoops.length then hold s
        else
          let (ok, ids, s) := s.writeRuns l bytes
          { s with b := s.b.updColl id (fun x =>
            let m := x.chunk c
            x.setChunk c { m with mask := if ok then putBits m.mask f f 1 else m.mask, writes := m.writes ++ ids.map (fun k => (k, f)),
                                  held := m.held.filter (fun h => !(h.1 == f)) }) }

/-- COLL_RESULT at an entry. -/
def takeMemberResult (s : State) (port : Nat) (p : Packet) (id : Nat) : State :=
  match s.b.findColl id with
  | none => s
  | some x =>
    let c := Packet.chunk p
    let f := Packet.frag p
    let m := x.chunk c
    match x.params, x.descOf c with
    | some pr, some _ =>
      if m.status.isSome then { s with b := s.b.sendAck x c }
      else
        let st := Packet.collStatus p
        let t := s.b.now .ep
        if st ≠ 0 ∧ st ≠ 9 then
          if !Packet.checkOk p || Packet.tailMarked p then { s with b := s.b.otherDrop .ep port }
          else { s with b := (s.b.updColl id (fun x => x.setChunk c { m with status := some st, nackFrom := some (m.nackFrom.getD t), held := [] })).sendAck x c }
        else if x.fragLast pr c < f ∨ Packet.payloadBytes p ≠ x.fragLen pr c f then { s with b := s.b.otherDrop .ep port }
        else
          let s := { s with b := s.b.updColl id (fun x => x.setChunk c { m with nackFrom := some (m.nackFrom.getD t), carried := st }) }
          if !Packet.checkOk p || Packet.tailMarked p then { s with b := s.b.otherDrop .ep port }
          else if bitOf m.mask f then s
          else s.writeFrag id c f (Packet.wire p)
    | _, _ => { s with b := s.b.otherDrop .ep port }

/-- RESULT_WRITE_DONE: fragments held are written where they can be; once every fragment is written and applied, the status is fixed and
acknowledged. -/
def resultWritten (s : State) (id c : Nat) : State :=
  match s.b.findColl id with
  | none => s
  | some x =>
    let s := (x.chunk c).held.foldl (fun s h => s.writeFrag id c h.1 h.2) s
    match s.b.findColl id with
    | none => s
    | some x =>
      let m := x.chunk c
      match x.params, m.status with
      | some p, none =>
        if m.nackFrom.isSome && m.mask == 2 ^ (x.fragLast p c + 1) - 1 && m.writes.all (fun k => !(s.b.ep.home.pend.any (fun y => y.id == k.1))) then
          { s with b := (s.b.updColl id (fun x => x.setChunk c { m with status := some m.carried, writes := [] })).sendAck x c }
        else s
      | _, _ => s

end State

namespace Blk

/-- RESULT_NACK_TIMER: T_R after the first fragment, and every T_R after that, the missing fragments are asked for; after the third
RESULT_NACK the chunk counts as CHECK_FAIL. -/
def resultNack (b : Blk) (id c : Nat) : Blk :=
  match b.findColl id with
  | none => b
  | some x =>
    let m := x.chunk c
    match x.params, m.nackFrom, m.status with
    | some p, some t, none =>
      let have_ := m.held.foldl (fun a h => putBits a h.1 h.1 1) m.mask
      let missing := (2 ^ (x.fragLast p c + 1) - 1) - have_
      if b.now .ep < t + tResend ∨ missing = 0 then b
      else if m.nacks < 3 then
        (b.updColl id (fun x => x.setChunk c { m with nacks := m.nacks + 1, nackFrom := some (b.now .ep) })).memberCtl x 0x26 1 c [] (beBytes 8 missing)
      else (b.updColl id (fun x => x.setChunk c { m with status := some 0xA, held := [] })).sendAck x c
    | _, _, _ => b

/-- Chunks whose status is fixed are credited once F has passed them (R234). -/
def creditFixed (b : Blk) (id below : Nat) : Blk :=
  match b.findColl id with
  | none => b
  | some x => b.forEach x.chunks (fun b e => match e.2.status with
      | some st => if e.1 < below then b.creditChunk id e.1 st else b
      | none => b)

/-- FREED at an entry (R221, R234). -/
def takeMemberFreed (b : Blk) (id f : Nat) : Blk :=
  match b.findColl id with
  | none => b
  | some x =>
    let fm := max x.fm f
    (((b.updColl id (fun x => { x with fm := fm })).creditFixed id fm).fillWindow id).restContrib id

/-- CLOSE at an entry (R238): acknowledged; the first one stops sending and credits what is not rounded. -/
def takeMemberClose (b : Blk) (id low mask : Nat) : Blk :=
  match b.findColl id with
  | none => b
  | some x =>
    let b := b.memberCtl x 0x25 7 0 [] []
    if x.closed then b
    else
      let un := ((upto 128).filter (fun i => bitOf mask i)).map (fun i => low + i)
      let b := b.updColl id (fun x => { x with closed := true, unround := un, unroundFrom := low + 128, toSend := [], recon := [] })
      let x := { x with closed := true, unround := un, unroundFrom := low + 128 }
      let b := b.forEach x.descs (fun b d => b.forBelow d.count (fun b i =>
        let c := d.first + i
        if x.unrounded c then b.creditChunk id c (absent x c) else b))
      b.endRunning x 0xB

/-- A member's entry closes: every chunk whose status is fixed is credited with it, every other with its ending without a result. -/
def closeEntry (b : Blk) (id : Nat) : Blk :=
  match b.findColl id with
  | none => b
  | some x =>
    let b := b.forEach x.descs (fun b d => b.forBelow d.count (fun b i =>
      let c := d.first + i
      b.creditChunk id c ((x.chunk c).status.getD (absent x c))))
    (b.endRunning x 0xB).dropColl id

/-- DONE at an entry (R225, R234). -/
def takeMemberDone (b : Blk) (id : Nat) : Blk :=
  match b.findColl id with
  | none => b
  | some x => (b.memberCtl x 0x25 6 0 [] []).closeEntry id

/-- 4 × TIMEOUT without a packet, after JOIN_REPLY (R239). -/
def memberSilent (b : Blk) (id : Nat) : Blk :=
  match b.findColl id with
  | none => b
  | some x =>
    match x.params with
    | none => b
    | some p => if x.lastPkt + 400000 * p.timeout ≤ b.now .ep then b.closeEntry id else b

end Blk

/-- Every T_R a member sends JOIN until it is answered, and its exponents until COLL_SCREED (R225). -/
def State.resendMember (s : State) (id : Nat) : State :=
  match s.b.findColl id with
  | none => s
  | some x =>
    if x.closed || decide (s.b.now .ep < x.resendAt + tResend) then s
    else
      match x.params with
      | none =>
        let t := s.b.now .ep
        { s with b := (s.b.updColl id (fun x => { x with resendAt := t })).sendJoin x }
      | some p => if p.exp && x.screed.isNone then s.sendExponents id else s

/-! ## Meanings -/

/-- A collective packet of one opcode and CTL at an end-point port. -/
def memberCmd (port : Nat) (p : Packet) (op ctl : Nat) (s : State) (f : State → State) : Res :=
  if hasPort .ep port then
    .next (if s.b.serving .ep && Packet.opcode p == op && (ctl == 0 || leAt p.payload 0 1 == ctl) then f s else s)
  else .fault .noSuchUnit

/-- CONTRIB (R218, R219). -/
def execContrib (n : Nat) (s : State) : Res := ctxCmd n s (fun b => b.begin_ n 4 (fun b d => b.beginContrib n d))

/-- JOIN_REPLY (R218, R222). -/
def execJoinReply (port : Nat) (p : Packet) (s : State) : Res :=
  memberCmd port p 0x25 3 s (fun s => s.atMember port p true (fun s id => s.takeJoinReply id (State.joinReplyParams p)) (fun b => b.otherDrop .ep port))

/-- JOIN_REFUSE (R220). -/
def execJoinRefuse (port : Nat) (p : Packet) (s : State) : Res :=
  memberCmd port p 0x26 4 s (fun s => s.atMember port p true
    (fun s id => { s with b := s.b.takeJoinRefuse id (leAt p.payload 1 1 % 16) }) (fun b => b.otherDrop .ep port))

/-- MEMBER_SCREED (R190). -/
def execMemberScreed (port : Nat) (p : Packet) (s : State) : Res :=
  memberCmd port p 0x23 0 s (fun s => s.atMember port p false
    (fun s id => { s with b := s.b.takeMemberScreed id (toSigned 16 (beNat (slice p.payload 0 2))) (windowBits (leAt p.payload 2 1)) (leAt p.payload 3 1) })
    (fun b => b.otherDrop .ep port))

/-- CHUNK_SEND (R221). -/
def execChunkSend (entry : Nat) (s : State) : Res := .next (if s.b.serving .ep then s.chunkSend entry else s)

/-- MEMBER_RECONTRIB (R229, R231). -/
def execMemberRecontrib (port : Nat) (p : Packet) (s : State) : Res :=
  memberCmd port p 0x27 1 s (fun s => s.atMember port p true
    (fun s id => s.takeMemberRecontrib id (Packet.chunk p) (leAt p.payload 1 1) (beNat (slice p.payload 16 8))) (fun b => b.otherDrop .ep port))

/-- MEMBER_RESULT (R232, R233). -/
def execMemberResult (port : Nat) (p : Packet) (s : State) : Res :=
  memberCmd port p 0x24 0 s (fun s => s.atMember port p (Packet.dst p != 16383) (fun s id => s.takeMemberResult port p id)
    (fun b => (b.otherDrop .ep port).answerUnmatched port p 1 (Packet.chunk p)))

/-- RESULT_WRITE_DONE (R232). -/
def execResultWriteDone (entry chunk : Nat) (s : State) : Res := .next (if s.b.serving .ep then s.resultWritten entry chunk else s)

/-- RESULT_NACK_TIMER (R232). -/
def execResultNackTimer (entry chunk : Nat) (s : State) : Res := s.on (fun b => if b.serving .ep then b.resultNack entry chunk else b)

/-- MEMBER_FREED (R221, R234). -/
def execMemberFreed (port : Nat) (p : Packet) (s : State) : Res :=
  memberCmd port p 0x25 5 s (fun s => s.atMember port p false (fun s id => { s with b := s.b.takeMemberFreed id (Packet.chunk p) })
    (fun b => b.otherDrop .ep port))

/-- MEMBER_CLOSE (R238). -/
def execMemberClose (port : Nat) (p : Packet) (s : State) : Res :=
  memberCmd port p 0x26 3 s (fun s => s.atMember port p false
    (fun s id => { s with b := s.b.takeMemberClose id (Packet.chunk p) (beNat (slice p.payload 16 16)) }) (fun b => b.answerUnmatched port p 7 0))

/-- MEMBER_DONE (R225, R234). -/
def execMemberDone (port : Nat) (p : Packet) (s : State) : Res :=
  memberCmd port p 0x25 6 s (fun s => s.atMember port p false (fun s id => { s with b := s.b.takeMemberDone id }) (fun b => b.answerUnmatched port p 6 0))

/-- MEMBER_SILENCE_TIMEOUT (R239). -/
def execMemberSilenceTimeout (entry : Nat) (s : State) : Res := s.on (fun b => if b.serving .ep then b.memberSilent entry else b)

/-- COLL_RESEND_TIMER (R224, R225): of a slot at the switch, of an entry at the end point. -/
def execCollResendTimer (d : Dev) (n : Nat) (s : State) : Res :=
  match d with
  | .sw => s.on (fun b => slotTimer n b (fun b => b.resendSlot n))
  | .ep => .next (if s.b.serving .ep then s.resendMember n else s)

end Sys2Proof.Machine
end

