-- ==== Sys2Proof/Machine/Calendars.lean ====
section
/-! DEFINITION. What waits inside the switch and goes on: for a calendar slot, for a home-agent engine, for a reduction engine (R116, R350, R373,
R377, R426, R429). -/

namespace Sys2Proof.Machine

open Sys2Proof

/-- A BAR2 access that waited, tried again: in order of receipt (R116). -/
def State.resumeBar2 (s : State) (i : Instr) : State :=
  Res.nextOr s (match i with
    | .bar2Write off bytes ecc => execBar2Write off bytes ecc s
    | .bar2Read off len ecc => execBar2Read off len ecc s
    | _ => .next s)

/-- Whether a command is a BAR2 access. -/
def isBar2 : Instr → Bool
  | .bar2Write _ _ _ => true
  | .bar2Read _ _ _ => true
  | _ => false

/-- Everything that waits inside the switch tried again: BAR2 accesses, collective packets, memory requests. -/
def State.resumeSw (s : State) : State :=
  let l := s.b.sw.waiting
  let s := (l.filter isBar2).foldl State.resumeBar2 { s with b := s.b.modSw (fun w => { w with waiting := l.filter (fun i => !isBar2 i) }) }
  ({ s with b := s.b.collDrain }).retryHome .sw

/-- A meaning that acts on the block, after which what waits inside the switch is tried again. -/
def State.onSw (s : State) (ok : Bool) (f : Blk → Blk) : Res := if ok then .next (({ s with b := f s.b }).resumeSw) else .fault .noSuchUnit

/-! ## Meanings -/

/-- CALENDAR_SLOT_START (R350, R373): what waited for the slot goes on. -/
def execCalendarSlotStart (cal : Nat) (s : State) : Res := s.onSw (hasCal cal) (fun b => b.startCalSlot cal)

end Sys2Proof.Machine
end

