-- ==== Sys2Proof/Machine/Abort.lean ====
section
/-! DEFINITION. Partition abort at the switch, ABORT_ALL on both parts, and what a device-fatal event does (R14, R465-R471, R474). -/

namespace Sys2Proof.Machine

open Sys2Proof

namespace Blk

/-! ## Aborting a partition (R468, R471) -/

/-- The abort notice for one port (R471). -/
def noticePacket (b : Blk) (port pid cause : Nat) : Packet :=
  mkPacket { tc := 6, opcode := 0x32, part := 0, plane := b.swPlane, dst := b.fld .sw (offPort .sw port 0) 47 34, src := b.swNode.getD 16383,
             low := packBits [(8, 1), (88, 0)] } false (beBytes 2 pid ++ leBytes 1 cause ++ zeros 29)

/-- A notice out of each live port that carries the partition and faces an end point. -/
def sendNotices (b : Blk) (i cause : Nat) : Blk :=
  let ports := (upto 72).filter (fun n => b.live .sw n && bitOf (b.partPorts i) n && b.fld .sw (offPort .sw n 0) 49 49 == 0)
  b.forEach ports (fun b n => b.sendOn .sw n (b.noticePacket n (b.partId i) cause))

/-- Steps 2 to 5: ABORTING, held topcoats ended with ABORTED, the notices, the slots of the range. -/
def beginAbort (b : Blk) (i cause : Nat) : Blk :=
  let o := offPartState i
  let pid := b.partId i
  let b := ((b.setFld .sw o 1 0 2).setFld .sw o 11 8 cause).wrapCount .sw o 47 32 1
  let b := b.forEach (b.sw.home.held.filter (fun h => Packet.part h.pkt == pid)) (fun b h => b.dropTop .sw h 8)
  let b := b.sendNotices i cause
  b.forEach ((upto (b.partNslots i)).map (fun k => b.partFirstSlot i + k)) (fun b n => if b.slotState n = 0 then b else b.freeSlot n)

/-- A trigger of R465 for one partition: only a RUNNING one begins an abort (R466, R467). One that meets a load comes after the load has
written the partition's entry, so the partition stays ABORTED when the load ends (R470). -/
def abortTrigger (b : Blk) (i cause : Nat) : Blk := if b.pstate i = 1 then b.beginAbort i cause else b

/-- Every partition aborted. -/
def abortParts (b : Blk) (cause : Nat) : Blk := b.forBelow 64 (fun b i => b.abortTrigger i cause)

/-- Step 6: ABORTED, the record, vector 2. -/
def abortFinish (b : Blk) (i : Nat) : Blk :=
  let o := offPartState i
  if b.pstate i ≠ 2 then b
  else
    let b := b.setFld .sw o 1 0 3
    (b.errRecord .sw { cls := 2, source := 0x13, event := 0x02, action := 0, inst := i, part := b.partId i, detail := b.fld .sw o 11 8 }).sendVector .sw 2

/-- Bring a partition's queued packets to their end (R469), where its abort begins and ends within one step of a lath load (R356, R363): what is
queued toward any egress or read back from the overflow, waits inside the switch, or waits before the home or the reduction complex is discarded
and counted; requests held in a lane will be answered with ABORTED. -/
def purgePart (b : Blk) (pid : Nat) : Blk :=
  let mine := fun p : Packet => Packet.part p == pid
  let own := fun src => src == srcAnswer || src == srcMgmt || src == srcHome
  let cs := b.sw.copies.filter (fun c => mine c.pkt && !own c.src)
  let b := b.forEach cs (fun b c =>
    let (n, b) := b.clearPointers c.id
    b.forBelow n (fun b _ => (b.unref c.id).countDrop c.pkt))
  let gone := fun i => match homePkt i, collPkt i with
    | some p, _ => if mine p then some p else none
    | none, some p => if mine p then some p else none
    | none, none => none
  let lost := b.sw.home.waiting.filterMap gone ++ b.sw.waiting.filterMap gone
    ++ (b.sw.intWait.filter (fun e => mine e.pkt && !own e.src)).map (fun e => e.pkt)
  let b := b.modSw (fun s => { s with
    home := { s.home with waiting := s.home.waiting.filter (fun i => (gone i).isNone) },
    waiting := s.waiting.filter (fun i => (gone i).isNone),
    intWait := s.intWait.filter (fun e => !mine e.pkt || own e.src),
    lanes := s.lanes.map (fun l => (l.1, l.2.map (fun e => if mine e.pkt && isRequest e.pkt then { e with status := some (e.status.getD 8) } else e))) })
  b.forEach lost (fun b p => b.countDrop p)

/-- A command refused (R466). -/
def partErr (b : Blk) (i : Nat) : Blk := b.setFlag .sw (offPartCtl i) 8 true

/-- ABORT written. -/
def cmdPartAbort (b : Blk) (i : Nat) : Blk := if b.pstate i = 0 then b.partErr i else b.abortTrigger i 1

/-- RESUME written (R470). -/
def cmdPartResume (b : Blk) (i : Nat) : Blk := if b.pstate i = 3 then b.setFld .sw (offPartState i) 1 0 1 else b.partErr i

/-- ABORT_ALL (R450). -/
def cmdAbortAll (b : Blk) (d : Dev) : Blk :=
  match d with
  | .sw => b.abortParts 2
  | .ep => b.abortEvery 3

/-! ## Device-fatal events (R14, R448, R465) -/

/-- What a device-fatal event does besides its own record: its marks, and the abort of every partition on the part: on the end point of every
context. Which of the causes of R474 the records of those contexts carry is free (log 70). -/
def deviceFatal (b : Blk) (d : Dev) (source : Nat) : Blk :=
  let b := match d with
    | .sw => b.abortParts 7
    | .ep =>
      let (r, b) := b.fresh
      b.abortEvery (Config.freeNat r % 5)
  b.markFatal d source

end Blk

/-! ## Meanings -/

/-- ABORT_ALL (R450, R465, R472). -/
def execAbortAll (d : Dev) (s : State) : Res := s.on (fun b => b.hostWrite d (fun b => b.cmdAbortAll d))

/-- PART_ABORT (R466, R468). -/
def execPartAbort (i : Nat) (s : State) : Res := s.onIf (hasIndex i) (fun b => b.hostWrite .sw (fun b => b.cmdPartAbort i))

/-- PART_ABORT_COMPLETE (R468, R474). -/
def execPartAbortComplete (i : Nat) (s : State) : Res := s.onIf (hasIndex i) (fun b => b.abortFinish i)

/-- PART_RESUME (R466, R470). -/
def execPartResume (i : Nat) (s : State) : Res := s.onIf (hasIndex i) (fun b => b.hostWrite .sw (fun b => b.cmdPartResume i))

end Sys2Proof.Machine
end

