-- ==== Sys2Proof/Machine/Patching.lean ====
section
/-! DEFINITION. Tiles, reduction engines and patching of the switch (R19, R176, R178, R203, R408, R418, R419, R423, R425-R433). -/

namespace Sys2Proof.Machine

open Sys2Proof

namespace Blk

/-! ## State of tiles and positions (R432) -/

def tstate (b : Blk) (t : Nat) : Nat := b.fld .sw (offTileStatus t) 55 52
def tilePos (b : Blk) (t : Nat) : Nat := b.fld .sw (offTileStatus t) 63 59
def spares (b : Blk) : Nat := b.fld .sw offPatchStatus 1 0
def posFailed (b : Blk) (p : Nat) : Bool := b.flag .sw offPatchStatus (44 + p)
def posActive (b : Blk) (p : Nat) : Bool := b.flag .sw offPatchStatus (24 + p)

/-- Spare positions that may be used, lowest first: in service, not active, their input lit. -/
def litSpares (b : Blk) : List Nat := (upto 20).filter (fun p => !b.posActive p && !b.posFailed p && b.inputLit .sw p)

/-- Whether patching may go on: no lath load, no supply hold (R360, R433). -/
def mayPatch (b : Blk) : Bool := b.sw.lath.job.isNone && !b.inSupplyHold

def setEngRetired (b : Blk) (e : Nat) (v : Bool) : Blk := if e < 64 then b.setFlag .sw offRengLo e v else b.setFlag .sw offRengHi (e - 64) v

/-! ## Triggers (R429, R433) -/

/-- Logical ports of a tile. -/
def tilePorts (t : Nat) : List Nat := (upto 4).map (fun i => 4 * t + i)

/-- The ports of a tile go to PATCHING; those retired for a fault outside the tile will return to RETIRED. -/
def portsDown (b : Blk) (t : Nat) : Blk :=
  b.forEach (tilePorts t) (fun b n =>
    let st := b.lstate .sw n
    if st = 5 then b
    else
      let keep := st == 4 && !b.flag .sw (offPort .sw n 0) 26
      let b := if st = 1 ∨ st = 2 ∨ st = 3 then b.linkDown .sw n 9 else b
      let b := if keep then b.modSw (fun s => { s with patch := { s.patch with keep := addNew s.patch.keep n } }) else b
      b.setFld .sw (offPort .sw n 0) 63 60 5)

/-- A trigger to patch a tile: queued in order; while a load or a hold keeps it waiting, the tile's ports are down. -/
def patchTrigger (b : Blk) (t : Nat) : Blk :=
  if b.tstate t = 2 then b
  else
    let b := b.modSw (fun s => { s with patch := { s.patch with queue := addNew s.patch.queue t } })
    if b.mayPatch then b else b.portsDown t

/-- One event of a tile's bucket. -/
def tileAdd (b : Blk) (t : Nat) : Blk :=
  if b.tstate t ≠ 0 then b
  else
    let l := b.bucketLevel .sw (.tile t) + 1
    if b.threshold .sw 3 ≤ l then (b.setBucketLevel .sw (.tile t) 0).patchTrigger t else b.setBucketLevel .sw (.tile t) l

/-- The logical tile a position serves. -/
def tileAt (b : Blk) (p : Nat) : Option Nat := (upto 18).find? (fun t => b.tilePos t == p)

/-- Loss of both fibres of an input for 10 ms (R408). -/
def darkTrigger (b : Blk) (k : Nat) : Blk :=
  match (b.core .sw).dark.find k, b.tileAt k with
  | some since, some t => if since + 10000000 ≤ b.now .sw then b.patchTrigger t else b
  | _, _ => b

/-- GO written (R432). -/
def cmdPatch (b : Blk) (t : Nat) : Blk :=
  if b.spares = 0 ∨ b.flag .sw offPatchStatus 2 = true ∨ b.sw.lath.job.isSome = true ∨ 17 < t then b.setFlag .sw offPatchCtl 5 true
  else b.patchTrigger t

/-! ## Tile errors and engines (R425, R426) -/

/-- An uncorrectable error inside a tile: counted, the packets it touches found bad with reason 2. -/
def tileError (b : Blk) (t : Nat) (copies : List Nat) : Blk :=
  let b := b.count .sw (offTileStatus t) 31 0 1
  (b.forEach copies (fun b id => b.foundBad id 2)).tileAdd t

/-- Chunks whose accumulators are lost are reset (R178). -/
def loseChunks (b : Blk) (l : List ChunkRef) : Blk :=
  b.forEach l (fun b c => if decide (c.slot < 1024) && (b.findBlock c.slot c.chunk).isSome then b.resetChunk c.slot c.chunk else b)

/-- Partitions that a retired engine leaves without one in service. -/
def leftWithout (b : Blk) (e : Nat) : List Nat :=
  (upto 64).filter (fun i => b.partValid i && bitOf (b.partEngines i) e && (upto 72).all (fun k => !bitOf (b.partEngines i) k || b.engRetired k))

/-- An engine retired: its bit, the announcement, its chunks reset, its record. -/
def retireEngine (b : Blk) (e : Nat) (held : List ChunkRef) : Blk :=
  let b := (b.modSw (fun s => { s with engLvl := s.engLvl.set e 0 0 })).setEngRetired e true
  let b := (b.schedEvent 8 e).loseChunks held
  let b := match b.leftWithout e with
    | [] => b.errRecord .sw { cls := 1, source := 0x05, event := 0x01, action := 0, inst := e, part := 0, detail := 0 }
    | l => b.forEach l (fun b i => b.errRecord .sw { cls := 1, source := 0x05, event := 0x02, action := 8, inst := e, part := b.partId i, detail := 0 })
  b.tileAdd (e / 4)

/-- One event of an engine's bucket, a rounding mismatch or a parity error; the chunk of a mismatch is reset where its last fragment is taken
(R203). `held` are the chunks the engine holds a part of. -/
def engineFault (b : Blk) (e : Nat) (held : List ChunkRef) : Blk :=
  if b.engRetired e then b
  else
    let l := b.sw.engLvl.get e 0 + 1
    if b.threshold .sw 4 ≤ l then b.retireEngine e held
    else b.modSw (fun s => { s with engLvl := s.engLvl.set e l 0 })

/-- The loopback test's end (R423). -/
def loopDone (b : Blk) (n : Nat) (pass : Bool) : Blk :=
  if (b.port .sw n).loopAt = none ∨ b.lstate .sw n ≠ 4 then b
  else
    let b := b.modPort .sw n (fun p => { p with loopAt := none })
    if pass then b.portRecord .sw n 1 2 0
    else ((b.setFlag .sw (offPort .sw n 0) 26 true).portRecord .sw n 1 1 1).tileAdd (n / 4)

/-! ## A patch (R429, R430) -/

/-- A record of SOURCE TILE (R436). -/
def tileRec (t cls event action old new : Nat) : ErrRec :=
  { cls := cls, source := 0x04, event := event, action := action, inst := t, part := 0, detail := old + 256 * new }

/-- The record of the patch in progress completed with what it has come to (R430, log 150). -/
def tileResult (b : Blk) (r : ErrRec) : Blk := b.completeRecord .sw b.sw.patch.recNo r

/-- Step 2: the patch in front of the queue begins. -/
def patchBegin (b : Blk) (held : List ChunkRef) : Blk :=
  match b.sw.patch.active, b.sw.patch.queue with
  | none, t :: rest =>
    if !b.mayPatch then b
    else
      let now := b.now .sw
      let b := b.modSw (fun s => { s with patch := { s.patch with queue := rest, active := some t, moved := false, at_ := now } })
      let b := (b.setFlag .sw offPatchStatus 2 true).schedEvent 2 t
      let e := b.fld .sw offErrPtr 31 0
      let b := (b.modSw (fun s => { s with patch := { s.patch with recNo := e } })).errRecord .sw (tileRec t 1 1 0 (b.tilePos t) 0xFF)
      (((b.setFld .sw (offTileStatus t) 55 52 1).setBucketLevel .sw (.tile t) 0).portsDown t).loseChunks held
  | _, _ => b

/-- A position taken out of service; the flash keeps it (R431). -/
def failPos (b : Blk) (p : Nat) : Blk :=
  (b.setFlag .sw offPatchStatus (44 + p) true).modSw (fun s => { s with patch := { s.patch with flash := addNew s.patch.flash p } })

/-- SPARES falls by 1. -/
def spendSpare (b : Blk) : Blk := b.setFld .sw offPatchStatus 1 0 (b.spares - 1)

/-- The spares tried in order with the results of their self-tests: those that fail are marked; the first that passes. -/
def trySpares : List Nat → List Bool → Blk → Option Nat × Blk
  | [], _, b => (none, b)
  | p :: r, ts, b => if ts.headD false then (some p, b) else trySpares r (ts.drop 1) ((b.failPos p).spendSpare)

/-- Retirements of the old position cleared: wavelengths, engines, ports with INSIDE set. -/
def clearTile (b : Blk) (t : Nat) : Blk :=
  let b := b.forEach ((upto 4).map (fun i => 4 * t + i)) (fun b e =>
    ((b.setEngRetired e false).modSw (fun s => { s with engLvl := s.engLvl.set e 0 0 })).restartDrain .sw (.engine e) 4)
  let b := (b.setBucketLevel .sw (.tile t) 0).restartDrain .sw (.tile t) 3
  b.forEach (tilePorts t) (fun b n =>
    let b := b.forBelow 9 (fun b w => (b.when_ (b.wlRole .sw n w == 3) (fun b => b.setWl .sw n w 0 0)).freshWl .sw n w)
    if b.sw.patch.keep.contains n then b.setFld .sw (offPort .sw n 0) 63 60 4
    else
      let b := ((b.closeLoop n).setFlag .sw (offPort .sw n 0) 26 false).setBucketLevel .sw (.portRcv n) 0
      (b.restartDrain .sw (.portRcv n) 2).startTraining .sw n)

/-- The tile fails: no usable spare is left (R430). -/
def tileFails (b : Blk) (t : Nat) : Blk :=
  let b := b.forEach (tilePorts t) (fun b n => (b.setFld .sw (offPort .sw n 0) 63 60 4).setBucketLevel .sw (.portRcv n) 0)
  let b := b.forEach ((upto 4).map (fun i => 4 * t + i)) (fun b e => if b.engRetired e then b else (b.setEngRetired e true).schedEvent 8 e)
  let b := b.setFld .sw (offTileStatus t) 55 52 2
  let node := b.swNode.isSome
  let b := (b.tileResult (tileRec t (if node then 3 else 1) 2 1 (b.tilePos t) 0xFF)).sendVector .sw 0
  if node then b.deviceFatal .sw 4 else b

/-- Steps 3 to 5: a spare that passes takes the tile, or the tile fails. -/
def patchMove (b : Blk) (tests : List Bool) : Blk :=
  match b.sw.patch.active with
  | none => b
  | some t =>
    if b.sw.patch.moved || !b.mayPatch then b
    else
      let b := b.modSw (fun s => { s with patch := { s.patch with moved := true } })
      let old := b.tilePos t
      match trySpares b.litSpares tests b with
      | (none, b) => b.tileFails t
      | (some p, b) =>
        let b := ((b.failPos old).setFlag .sw offPatchStatus (24 + old) false).setFlag .sw offPatchStatus (24 + p) true
        let b := b.spendSpare
        let b := b.tileResult (tileRec t 1 1 (if b.spares = 0 then 1 else 0) old p)
        (b.setFld .sw (offTileStatus t) 63 59 p).clearTile t

/-- Step 7: the last port is up, or step 6's maximum has passed. -/
def patchEnd (b : Blk) : Blk :=
  match b.sw.patch.active with
  | none => b
  | some t =>
    let up := (tilePorts t).all (fun n => b.lstate .sw n != 1 && b.lstate .sw n != 3)
    if b.sw.patch.moved && (up || decide (b.sw.patch.at_ + 41000000 ≤ b.now .sw)) then
      let b := (b.setFlag .sw offPatchStatus 2 false).schedEvent 3 t
      let b := if b.tstate t = 2 then b else b.setFld .sw (offTileStatus t) 55 52 0
      b.modSw (fun s => { s with patch := { s.patch with active := none, moved := false, keep := s.patch.keep.filter (fun n => n / 4 != t) } })
    else b

end Blk

/-! ## Meanings -/

/-- Fault handling stops with the clocks (R433). -/
def swFault (s : State) (ok : Bool) (f : Blk → Blk) : Res := s.onIf ok (fun b => if b.inRun .sw then f b else b)

/-- LOOPBACK_TEST_DONE (R423). -/
def execLoopbackTestDone (port : Nat) (pass : Bool) (s : State) : Res := swFault s (hasPort .sw port) (fun b => b.loopDone port pass)

/-- LSUP_LOSS_PATCH_TRIGGER (R408). -/
def execLsupLossPatchTrigger (k : Nat) (s : State) : Res := swFault s (hasLsup .sw k) (fun b => b.darkTrigger k)

/-- TILE_INTERNAL_ERROR (R425). -/
def execTileInternalError (t : Nat) (_where : TileFault) (copies : List Nat) (s : State) : Res := swFault s (hasTile t) (fun b => b.tileError t copies)

/-- ENGINE_FAULT (R203, R419, R426). -/
def execEngineFault (e : Nat) (_err : EngineErr) (held : List ChunkRef) (s : State) : Res :=
  swFault s (hasEngine e) (fun b => b.engineFault e held)

/-- PATCH_GO (R429, R432). -/
def execPatchGo (tile : Nat) (s : State) : Res := s.on (fun b => b.hostWrite .sw (fun b => b.cmdPatch tile))

/-- PATCH_BEGIN (R429). -/
def execPatchBegin (held : List ChunkRef) (s : State) : Res := swFault s true (fun b => b.patchBegin held)

/-- PATCH_MOVE (R429, R430): the home-agent engine resumes, and what waited for it goes on. -/
def execPatchMove (selfTests : List Bool) (s : State) : Res := s.onSw true (fun b => if b.inRun .sw then b.patchMove selfTests else b)

/-- PATCH_END (R429). -/
def execPatchEnd (s : State) : Res := swFault s true (fun b => b.patchEnd)

end Sys2Proof.Machine
end

