-- ==== Sys2Proof/Machine/Time.lean ====
section
/-! DEFINITION. Time messages as they arrive, the exchange every millisecond, loss of the source, PTP, and the registers of time
(R482-R491, R502-R504). -/

namespace Sys2Proof.Machine

open Sys2Proof

namespace Blk

/-- A time message at an end-point port: a link-local one goes to the time unit; a routed probe for this node is answered by its
management processor (R490). -/
def timeAtEp (b : Blk) (port : Nat) (p : Packet) : Blk :=
  match b.arrive port p (Packet.linkLocal p || b.mine p) with
  | (false, b) => b
  | (true, b) =>
    if Packet.linkLocal p then b.timeUnit .ep port p
    else if Packet.opcode p = 0x30 then b.epSend port (b.timeReplyPacket .ep p (Packet.plane p) (Packet.src p) (b.stamp .ep))
    else b

/-- A time message at a port: on the switch the pipeline hands a link-local one to the time unit and routes a probe. -/
def timeArrives (b : Blk) (d : Dev) (port : Nat) (p : Packet) : Blk :=
  if b.serving d && b.portUp d port then
    match d with
    | .sw => b.ingress port p
    | .ep => b.timeAtEp port p
  else b

/-- Whether the time servo runs: firmware has started and the part has not stopped (R508). -/
def servoRuns (b : Blk) (d : Dev) : Bool := b.inRun d && (b.core d).boot.fw

/-- TIME_SYNC sent every 1 ms on the source port; an exchange still open was not good (R489). -/
def sendSync (b : Blk) (d : Dev) : Blk :=
  match b.srcPort d with
  | none => b
  | some n =>
    let s := (b.core d).servo
    if b.timeSrc d = 2 ∧ s.lastSync + 1000000 ≤ b.now d then
      let t := b.now d
      let b := b.modServo d (fun v => { v with
        goodRun := if v.sync.isSome then 0 else v.goodRun,
        sync := some { id := v.nextId, t1 := 0, port := n, at_ := t },
        nextId := (v.nextId + 1) % 65536,
        lastSync := t,
        chosen := some n })
      b.sendOn d n (b.timeSyncPacket d n s.nextId)
    else b

/-- 10 ms without a good exchange (R489, R513). -/
def sourceLost (b : Blk) (d : Dev) : Blk :=
  let s := (b.core d).servo
  if b.timeSrc d = 2 ∧ s.lost = false ∧ s.lastGood + 10000000 ≤ b.now d then
    let b := b.modServo d (fun v => { v with lost := true, goodRun := 0 })
    let b := (b.setTimeLocked d false).cptEvent d 2
    let b := b.setFld d offTimeStatus 61 58 15
    b.errRecord d { cls := 0, source := 0x10, event := 2, action := 0, inst := 0, part := 0,
                    detail := b.timeSrc d + 256 * b.fld d offTimeCtl 61 55 }
  else b

/-- A frame on the management port (R486, R504): a PTP message feeds the servo when the time source is PTP, whose DEPTH is 0; LOCKED
follows 16 Sync intervals within 10 ns. `off` is in 2^-8 ns. -/
def mgmtFrame (b : Blk) (f : MgmtFrame) : Blk :=
  match f with
  | .other => b.modSw (fun s => { s with mgmtDrop := s.mgmtDrop + 1 })
  | .ptp off syncEnd =>
    if b.timeSrc .sw ≠ 1 then b
    else
      let off16 := off * 256
      let t := b.now .sw
      let b := b.modServo .sw (fun v => { v with lastGood := t, missed := v.missed || decide (2560 < off.natAbs) })
      let b := (b.setFld .sw offTimeStatus 61 58 0).discipline .sw off16
      let b := b.when_ syncEnd (fun b => b.modServo .sw (fun v => { v with
        goodRun := if v.missed then 0 else min 16 (v.goodRun + 1), missed := false }))
      if 12800 < off.natAbs then (b.modServo .sw (fun v => { v with goodRun := 0 })).setTimeLocked .sw false
      else if 16 ≤ (b.core .sw).servo.goodRun then b.setTimeLocked .sw true else b

/-- A write of TIME_CTL (R503). -/
def writeTimeCtl (b : Blk) (d : Dev) (v : Nat) : Blk :=
  let old := b.fld d offTimeCtl 63 46
  let b := b.writeFields d offTimeCtl v
  if b.fld d offTimeCtl 63 46 = old then b else b.restartServo d

/-- TIME_NS as a read finds it: the fraction is latched in TIME_FRAC (R502). -/
def latchFrac (b : Blk) (d : Dev) : Blk := b.putReg d offTimeFrac (b.timeFrac d)

end Blk

/-! ## Meanings -/

/-- TIME_SYNC (R488, R490). -/
def execTimeSync (d : Dev) (port : Nat) (p : Packet) (s : State) : Res :=
  s.onIf (hasPort d port) (fun b => if Packet.opcode p = 0x30 then b.timeArrives d port p else b)

/-- TIME_REPLY (R489). -/
def execTimeReply (d : Dev) (port : Nat) (p : Packet) (s : State) : Res :=
  s.onIf (hasPort d port) (fun b => if Packet.opcode p = 0x31 then b.timeArrives d port p else b)

/-- TIME_SYNC_TIMER (R489). -/
def execTimeSyncTimer (d : Dev) (s : State) : Res := s.on (fun b => if b.servoRuns d then b.sendSync d else b)

/-- TIME_SOURCE_LOST (R489). -/
def execTimeSourceLost (d : Dev) (s : State) : Res := s.on (fun b => if b.servoRuns d then b.sourceLost d else b)

/-- PTP_MESSAGE (R486). -/
def execPtpMessage (f : MgmtFrame) (s : State) : Res := s.on (fun b => if b.servoRuns .sw then b.mgmtFrame f else b)

/-- TIME_CTL_WRITE (R503). -/
def execTimeCtlWrite (d : Dev) (val : Nat) (s : State) : Res := s.on (fun b => b.hostWrite d (fun b => b.writeTimeCtl d val))

/-- TIME_NS_READ (R502). -/
def execTimeNsRead (d : Dev) (s : State) : Res :=
  s.on (fun b => if b.clocked d then (b.latchFrac d).emit (.readData d offTimeNs 8 (b.timeNs d)) else b)

end Sys2Proof.Machine
end

