-- ==== Sys2Proof/Machine/Supply.lean ====
section
/-! DEFINITION. Supply, power and temperature of the switch: the hold, its escalation, the throttle, the thermal protections
(R376-R378, R492-R494, R497-R499, R505, R506, R512, R513). Voltages are in units of 20 mV, powers in W, temperatures in °C. -/

namespace Sys2Proof.Machine

open Sys2Proof

namespace Blk

/-! ## Readings (R505) -/

def limitW (b : Blk) : Nat := b.fld .sw offPwrCtl 11 0

def setVin (b : Blk) (vin : Nat) : Blk := b.setFld .sw offPwrStatus 63 52 vin

def setTj (b : Blk) (d : Dev) (tj : Int) : Blk := b.setFld d offPwrStatus 39 32 (ofSigned 8 tj)

/-- The input voltage read, the least of a hold kept. -/
def noteVin (b : Blk) (vin : Nat) : Blk :=
  (b.setVin vin).modSw (fun s => { s with hold := { s.hold with minVin := min s.hold.minVin vin } })

/-! ## The hold (R493, R494, R499) -/

/-- A hold comes into force for a cause (1 SUPPLY, 2 POWER, 3 THERMAL); a further cause joins the one in force (R512). -/
def beginHold (b : Blk) (cause : Nat) : Blk :=
  if b.sw.hold.causes.isEmpty then
    let t := b.now .sw
    let vin := b.fld .sw offPwrStatus 63 52
    let b := b.settleSwatch
    let b := b.modSw (fun s => { s with hold := { causes := [cause], began := t, riseAt := none, minVin := vin } })
    let b := (b.setFld .sw offCptStatus 49 48 1).setFld .sw offCptStatus 47 46 cause
    let b := b.wrapCount .sw offHoldLog 63 48 1
    let b := (b.setBsy .sw 12 true).ring .sw 6
    (b.cptEvent .sw 3).schedEvent 4 0
  else b.modSw (fun s => { s with hold := { s.hold with causes := addNew s.hold.causes cause } })

/-- Whether the input has been above 44.0 V for 1 ms. -/
def supplyBack (b : Blk) : Bool :=
  match b.sw.hold.riseAt with
  | some t => decide (t + 1000000 ≤ b.now .sw)
  | none => false

/-- The input below 43.0 V. -/
def supplyLow (b : Blk) (vin : Nat) : Blk :=
  let b := b.setVin vin
  let b := b.beginHold 1
  (b.noteVin vin).modSw (fun s => { s with hold := { s.hold with riseAt := none } })

/-- The input above 44.0 V: the 1 ms begins. -/
def supplyUp (b : Blk) (vin : Nat) : Blk :=
  let t := b.now .sw
  (b.noteVin vin).modSw (fun s => { s with hold := { s.hold with riseAt := match s.hold.riseAt with
    | some x => some x
    | none => some t } })

/-- The input below 44.0 V again: the 1 ms begins anew, unless it has run. -/
def clearingFall (b : Blk) (vin : Nat) : Blk :=
  let b := b.noteVin vin
  if b.supplyBack then
    if b.sw.hold.causes.length ≤ 1 then b
    else b.modSw (fun s => { s with hold := { s.hold with causes := without s.hold.causes 1 } })
  else b.modSw (fun s => { s with hold := { s.hold with riseAt := none } })

/-- The progress timers stood still for the hold (R227). -/
def shiftProgress (b : Blk) (began : Nat) : Blk :=
  let t := b.now .sw
  b.forBelow 1024 (fun b n =>
    if b.slotState n = 2 then b.modSlot n (fun x => { x with progressAt := x.progressAt + (t - max x.progressAt began) }) else b)

/-- Step 4: every cause has ended. -/
def finishHold (b : Blk) : Blk :=
  let h := b.sw.hold
  let us := (b.now .sw - h.began) / 1000
  let cause := b.fld .sw offCptStatus 47 46
  let b := (b.shiftProgress h.began).settleSwatch
  let b := b.modSw (fun s => { s with hold := { Hold.none with began := h.began } })
  let b := (b.setFld .sw offCptStatus 49 48 0).setFld .sw offCptStatus 47 46 0
  let b := (b.setFld .sw offHoldLog 47 24 (min us 0xFFFFFF)).setFld .sw offHoldLog 23 12 h.minVin
  let b := (b.setBsy .sw 12 false).ring .sw 7
  let b := (b.cptEvent .sw 4).schedEvent 5 0
  b.errRecord .sw { cls := 0, source := 0x11, event := 1, action := 0, inst := 0, part := 0,
                    detail := min us 0xFFFFFFFF + 2 ^ 32 * h.minVin + 2 ^ 48 * cause }

/-- The causes that have ended leave the hold; when none is left it ends. -/
def holdEnds (b : Blk) (mean10 : Nat) (tjMax10 : Int) : Blk :=
  if b.sw.hold.causes.isEmpty then b
  else
    let ended := fun c : Nat =>
      if c = 1 then b.supplyBack else if c = 2 then decide (mean10 + 70 < b.limitW) else decide (tjMax10 < 100)
    let left := b.sw.hold.causes.filter (fun c => !ended c)
    if left.isEmpty then b.finishHold else b.modSw (fun s => { s with hold := { s.hold with causes := left } })

/-- Step 5: 50 ms without step 4. -/
def escalate (b : Blk) : Blk :=
  if b.fld .sw offCptStatus 49 48 = 1 ∧ b.sw.hold.began + 50000000 ≤ b.now .sw then
    let cause := b.fld .sw offCptStatus 47 46
    let b := (b.setFld .sw offCptStatus 49 48 2).cptEvent .sw 5
    let b := b.errRecord .sw { cls := 2, source := 0x11, event := 2, action := 0, inst := 0, part := 0, detail := 2 ^ 48 * cause }
    b.abortParts 5
  else b

/-! ## The throttle (R377, R497, R498) -/

/-- kp of R497. -/
def stepP (p limit : Nat) : Nat := if p + 70 < limit then 0 else min 7 ((p + 70 - limit) / 10 + 1)

/-- kt of R497. -/
def stepT (t : Int) : Nat := if t < 95 then 0 else min 7 ((t - 95).toNat / 2 + 1)

/-- MASKED_MODE brought in line with the partitions in force (R505); without a masked one the step of R377 is 0. -/
def refreshMasked (b : Blk) : Blk :=
  let m := b.anyMasked
  let b := b.setFlag .sw offPwrStatus 28 m
  if m then b else b.setFld .sw offSecState 18 16 0

/-- A step comes into force. -/
def setStep (b : Blk) (k : Nat) (masked : Bool) : Blk :=
  let old := b.fld .sw offPwrStatus 31 29
  let b := b.setFld .sw offPwrStatus 31 29 k
  let b := b.setFld .sw offSecState 18 16 (if masked then k else 0)
  if k = old then b else if masked then b else b.cptEvent .sw 6

/-- Every 1 ms without a masked partition. -/
def throttleMs (b : Blk) (p : Nat) (tj : Int) : Blk :=
  if b.anyMasked = false ∧ b.sw.thrAt + 1000000 ≤ b.now .sw then
    let t := b.now .sw
    let b := b.modSw (fun s => { s with powers := (p :: s.powers).take 100, thrAt := t })
    let mean := b.sw.powers.foldl (· + ·) 0 / b.sw.powers.length
    let b := ((b.setFld .sw offPwrStatus 51 40 mean).setTj .sw tj).refreshMasked
    b.setStep (max (stepP p b.limitW) (stepT tj)) false
  else b

/-- A 100 ms boundary of the time counter with a masked partition; the record carries the boundary's time. -/
def throttleBoundary (b : Blk) (p : Nat) : Blk :=
  let no := b.timeNs .sw / 100000000
  if b.anyMasked = true ∧ no ≠ b.sw.thrNo then
    let t := b.now .sw
    let b := b.modSw (fun s => { s with powers := [p], thrAt := t, thrNo := no })
    let old := b.fld .sw offSecState 18 16
    let k := stepP p b.limitW
    let b := (b.setFld .sw offPwrStatus 51 40 p).refreshMasked
    let b := b.setStep k true
    if k = old then b else b.schedEventAt (no * 100000000) 1 k
  else b

/-- A write of LIMIT is ignored while LOCK is set (R498). -/
def writePwrCtl (b : Blk) (v : Nat) : Blk := if b.flag .sw offSecState 0 then b else b.writeFields .sw offPwrCtl v

/-! ## The safe state (R479, R499) -/

/-- Steps 3 to 5 of R479: modulators quiet, PCIe and UCIe idle, clocks gated; the part holds its state and serves nothing. -/
def quiet (b : Blk) (d : Dev) (halt : Halt) : Blk :=
  b.modCore d (fun c => { c with pcieUp := false, boot := { c.boot with halt := halt } })

/-- 120 °C. -/
def thermalStop (b : Blk) (d : Dev) (tj : Int) : Blk :=
  let b := b.setTj d tj
  let b := b.errRecord d { cls := 3, source := 0x11, event := 3, action := 16, inst := 0, part := 0, detail := ofSigned 8 tj }
  (b.deviceFatal d 0x11).quiet d .safe

end Blk

/-- The contents of every carve but fabric memory gone: packets in the overflow and their pointers, records of the swatch ring. -/
def Blk.loseCarves (b : Blk) : Blk :=
  let gone := (b.sw.copies.filter (fun c => c.where_ == .hbm)).map (fun c => c.id)
  b.modSw (fun s => { s with
    swatch := [], badLines := [], ceLines := [], ueRows := [], scrubbed := [],
    copies := s.copies.filter (fun c => !gone.contains c.id),
    spills := s.spills.filter (fun e => !gone.contains e.1),
    voqs := s.voqs.map (fun q => { q with ents := q.ents.filter (fun x => !gone.contains x) }) })

/-- What clock loss and the safe state do to HBM: the controllers stop, and the contents of every carve are lost (R334). -/
def State.loseHbm (s : State) (d : Dev) : State :=
  match d with
  | .sw => { s with b := s.b.loseCarves, fmem := [] }
  | .ep => s

/-- A meaning of the switch's monitors, which stand while its clocks do. -/
def monitor (s : State) (f : Blk → Blk) : Res := s.on (fun b => if b.inRun .sw then f b else b)

/-! ## Meanings -/

/-- SUPPLY_WARNING (R493, R494): a reading that is not below 43.0 V is no warning. -/
def execSupplyWarning (vin : Nat) (s : State) : Res := monitor s (fun b => if vin < 2150 then b.supplyLow vin else b)

/-- SUPPLY_RISE (R494). -/
def execSupplyRise (vin : Nat) (s : State) : Res :=
  monitor s (fun b => if 2200 < vin ∧ b.sw.hold.causes.contains 1 = true then b.supplyUp vin else b)

/-- WARNING_CLEARING_FALL (R494). -/
def execWarningClearingFall (vin : Nat) (s : State) : Res :=
  monitor s (fun b => if 2150 ≤ vin ∧ vin < 2200 ∧ b.sw.hold.causes.contains 1 = true then b.clearingFall vin else b)

/-- HOLD_END (R494, R499, R512, R513): the mean power and the highest temperature of the last 10 ms. -/
def execHoldEnd (mean10 : Nat) (tjMax10 : Int) (s : State) : Res := monitor s (fun b => b.holdEnds mean10 tjMax10)

/-- HOLD_ESCALATION (R494, R465, R513). -/
def execHoldEscalation (s : State) : Res := monitor s (fun b => b.escalate)

/-- POWER_HOLD (R499). -/
def execPowerHold (meanPower : Nat) (s : State) : Res :=
  monitor s (fun b => if b.fld .sw offPwrStatus 31 29 = 7 ∧ b.limitW + 30 ≤ meanPower then b.beginHold 2 else b)

/-- THERMAL_HOLD (R499). -/
def execThermalHold (tj : Int) (s : State) : Res := monitor s (fun b => if 110 ≤ tj then (b.setTj .sw tj).beginHold 3 else b)

/-- THROTTLE_UPDATE (R497, R498). -/
def execThrottleUpdate (meanPower : Nat) (tj : Int) (s : State) : Res := monitor s (fun b => b.throttleMs meanPower tj)

/-- THROTTLE_BOUNDARY (R377, R378, R498). -/
def execThrottleBoundary (meanPower : Nat) (s : State) : Res := monitor s (fun b => b.throttleBoundary meanPower)

/-- THERMAL_WARN (R501). -/
def execThermalWarn (d : Dev) (tj : Int) (s : State) : Res :=
  s.on (fun b => if b.clocked d && decide (95 ≤ tj) then (b.setTj d tj).cptEvent d 7 else b)

/-- THERMAL_SHUTDOWN (R499, R513). -/
def execThermalShutdown (d : Dev) (tj : Int) (s : State) : Res :=
  .next (if s.b.clocked d && decide (120 ≤ tj) then ({ s with b := s.b.thermalStop d tj }).loseHbm d else s)

end Sys2Proof.Machine
end

