-- ==== Sys2Proof/Machine/Mailbox.lean ====
section
/-! DEFINITION. The mailbox and the doorbells: sending, collision, take, timeout and acknowledges, and the short messages
(R453-R461). -/

namespace Sys2Proof.Machine

open Sys2Proof

/-! ## Messages (R454, R458) -/

def msgCode (m : List Byte) : Nat := leAt m 0 2
def msgToken (m : List Byte) : Nat := leAt m 2 2
/-- Argument bytes. -/
def msgArgs (m : List Byte) (off n : Nat) : List Byte := slice m (8 + off) n
def msgArg (m : List Byte) (off n : Nat) : Nat := leAt m (8 + off) n

/-- Whether bytes 4-7 and the argument bytes from an offset on are 0. -/
def msgReserved (m : List Byte) (off : Nat) : Bool := leAt m 4 4 == 0 && (msgArgs m off (56 - off)).all (fun x => x == 0#8)

/-- Whether a message is one of a part's table. -/
def msgKnown (d : Dev) (c : Nat) : Bool := [0x1, 0x2, 0x20, 0x40, 0x41, 0x42].contains c || (c == 0x10 && d == .sw)

namespace Blk

def modMbox (b : Blk) (d : Dev) (f : Mbox → Mbox) : Blk := b.modCore d (fun c => { c with mbox := f c.mbox })

def mboxFull (b : Blk) (d : Dev) : Bool := b.flag d offMboxCtl 1

def recovery (b : Blk) (d : Dev) : Bool := b.flag d offStatus 8

def lockedPart (b : Blk) (d : Dev) : Bool := b.flag d offSecState 0

/-! ## The mailbox (R455) -/

/-- A collision of the waiting message. -/
def collide (b : Blk) (d : Dev) : Blk :=
  ((b.modMbox d (fun m => { m with collided := true })).setFlag d offMboxCtl 2 true).ring d 2

/-- SEND written as 1. -/
def sendMsg (b : Blk) (d : Dev) : Blk :=
  if b.mboxFull d then b.collide d
  else
    let t := b.now d
    let l := b.getBytes d offMboxData 64
    (b.modMbox d (fun m => { m with latched := l, collided := false, sentAt := t })).setFlag d offMboxCtl 1 true

/-- A message-data register written. -/
def writeMboxData (b : Blk) (d : Dev) (k v : Nat) : Blk :=
  let b := b.writeFields d (offMboxData + 8 * k) v
  if b.mboxFull d then b.collide d else b

/-- An acknowledge handed to the queue. -/
def ack (b : Blk) (d : Dev) (m : List Byte) (code : Nat) (resp : List Byte) : Blk :=
  b.modMbox d (fun x => { x with acks := x.acks ++ [{ token := msgToken m, msg := msgCode m, code := code, resp := resp }] })

/-- Firmware, or the boot ROM in the recovery state, takes a message: not while eight acknowledges wait. -/
def takeMsg (b : Blk) (d : Dev) : Blk :=
  let m := (b.core d).mbox
  let runs := (b.core d).boot.fw || b.recovery d
  if !b.mboxFull d || !runs || decide (8 ≤ m.acks.length) then b
  else
    let b := b.setFlag d offMboxCtl 1 false
    if m.collided then b.ack d m.latched 0x101 []
    else b.modMbox d (fun x => { x with taken := x.taken ++ [m.latched] })

/-- The take timer. -/
def mboxLate (b : Blk) (d : Dev) : Blk :=
  if b.mboxFull d && decide ((b.core d).mbox.sentAt + 1000000 * b.fld d offMboxCtl 31 16 ≤ b.now d) then
    ((b.setFlag d offMboxCtl 1 false).setFlag d offMboxCtl 3 true).ring d 1
  else b

/-- The oldest waiting acknowledge written: response, then MBOX_ACK, then doorbell 0. -/
def postAck (b : Blk) (d : Dev) : Blk :=
  match (b.core d).mbox.acks with
  | [] => b
  | a :: rest =>
    if b.flag d offMboxAck 63 then b
    else
      let b := b.modMbox d (fun x => { x with acks := rest })
      let b := b.putBytes d offMboxResp (a.resp.take 48)
      (b.putReg d offMboxAck (2 ^ 63 + a.token % 65536 * 2 ^ 32 + a.msg % 65536 * 2 ^ 16 + a.code % 65536)).ring d 0

/-! ## Messages carried out (R457-R459) -/

/-- The first taken message a test accepts, and the block without it. -/
def nextMsg (b : Blk) (d : Dev) (p : List Byte → Bool) : Option (List Byte × Blk) :=
  match (b.core d).mbox.taken.find? p with
  | none => none
  | some m => some (m, b.modMbox d (fun x => { x with taken := x.taken.erase m }))

/-- The answer a state gives to every message but those it serves: recovery serves PING, GET_INFO and FW_LOAD, a part that waits
after clock loss PING and GET_INFO. -/
def stateRefuses (b : Blk) (d : Dev) (code : Nat) : Option Nat :=
  if (b.core d).boot.halt == .waitPerst && !(code == 1 || code == 2) then some 0x107
  else if b.recovery d && !(code == 1 || code == 2 || code == 0x20) then some 0x104
  else none

/-- A message of one kind, while the part's clocks run. -/
def onMsg (b : Blk) (d : Dev) (code : Nat) (f : Blk → List Byte → Blk) : Blk :=
  if !b.clocked d then b
  else match b.nextMsg d (fun m => msgCode m == code) with
    | none => b
    | some (m, b) =>
      match b.stateRefuses d code with
      | some c => b.ack d m c []
      | none => f b m

/-- A debug message: refused on a locked part. -/
def onDebug (b : Blk) (d : Dev) (code : Nat) (f : Blk → List Byte → Blk) : Blk :=
  b.onMsg d code (fun b m => if b.lockedPart d then b.ack d m 0x102 [] else f b m)

/-- PING. -/
def doPing (b : Blk) (d : Dev) (m : List Byte) : Blk :=
  if msgReserved m 8 then b.ack d m 0 (msgArgs m 0 8) else b.ack d m 0x103 []

/-- GET_INFO: the boot ROM names no release. -/
def doGetInfo (b : Blk) (d : Dev) (m : List Byte) : Blk :=
  if msgReserved m 0 then
    let c := b.core d
    let id := if b.recovery d then zeros 8 else leBytes 4 (Config.fwVersion c.fwDigest) ++ leBytes 4 (Config.fwSvn c.fwDigest)
    b.ack d m 0 (id ++ leBytes 8 c.fwStart)
  else b.ack d m 0x103 []

/-- Whether the part can read host memory by DMA (R440). -/
def canDma (b : Blk) (d : Dev) : Bool := (b.core d).pcieUp && (b.core d).busMaster

/-- FW_LOAD: one at a time, not in a hold. -/
def doFwLoad (b : Blk) (d : Dev) (m : List Byte) : Blk :=
  if !msgReserved m 12 then b.ack d m 0x103 []
  else if (b.core d).mbox.fwJob.isSome then b.ack d m 1 []
  else if d == .sw && b.inSupplyHold then b.ack d m 2 []
  else if msgArg m 0 8 % 4096 ≠ 0 ∨ 0x2000000 < msgArg m 8 4 ∨ b.canDma d = false then b.ack d m 3 []
  else b.modMbox d (fun x => { x with fwJob := some m })

/-- Code of a FW_LOAD's outcome. -/
def fwCode : FwResult → Nat
  | .ok => 0
  | .verifyFailed => 0x105
  | .flashFailed => 0x106
  | .fetchFailed => 3

/-- FW_LOAD ends. -/
def fwEnd (b : Blk) (d : Dev) (r : FwResult) : Blk :=
  match (b.core d).mbox.fwJob with
  | none => b
  | some m => (b.modMbox d (fun x => { x with fwJob := none })).ack d m (fwCode r) []

/-- DBG_PEEK: the bytes are those of the internal map, which is not given. -/
def doPeek (b : Blk) (d : Dev) (m : List Byte) : Blk :=
  let n := msgArg m 8 1
  if msgReserved m 9 && decide (1 ≤ n) && decide (n ≤ 48) then
    let (l, b) := b.freshBytes n
    b.ack d m 0 l
  else b.ack d m 0x103 []

/-- DBG_POKE changes nothing the manual defines. -/
def doPoke (b : Blk) (d : Dev) (m : List Byte) : Blk :=
  let n := msgArg m 8 1
  let ok := leAt m 4 4 == 0 && (msgArgs m 9 7).all (fun x => x == 0#8) && decide (1 ≤ n) && decide (n ≤ 40)
    && (msgArgs m (16 + n) (40 - n)).all (fun x => x == 0#8)
  b.ack d m (if ok then 0 else 0x103) []

def doTrace (b : Blk) (d : Dev) (m : List Byte) : Blk :=
  let v := msgArg m 0 1
  if msgReserved m 1 && decide (v ≤ 1) then (b.modMbox d (fun x => { x with trace := v == 1 })).ack d m 0 [] else b.ack d m 0x103 []

/-- A message that does not exist on the part. -/
def unknownMsg (b : Blk) (d : Dev) : Blk :=
  if !b.clocked d then b
  else match b.nextMsg d (fun m => !msgKnown d (msgCode m)) with
    | none => b
    | some (m, b) => b.ack d m ((b.stateRefuses d (msgCode m)).getD 0x100) []

/-! ## Doorbells (R461) -/

/-- A write of MASK: a bit cleared whose doorbell is set sends the vector. -/
def writeDbMask (b : Blk) (d : Dev) (v : Nat) : Blk :=
  let old := b.fld d offDbMask 31 0
  let b := b.writeFields d offDbMask v
  let new := b.fld d offDbMask 31 0
  if old &&& (0xFFFFFFFF - new) &&& b.fld d offDbStatus 31 0 ≠ 0 then b.sendVector d 1 else b

end Blk

/-- A write to the mailbox region, served whatever READY shows (R452). -/
def mboxWrite (d : Dev) (s : State) (f : Blk → Blk) : Res := s.on (fun b => if b.clocked d then f b else b)

/-! ## Meanings -/

/-- MBOX_SEND (R455). -/
def execMboxSend (d : Dev) (s : State) : Res := mboxWrite d s (fun b => b.sendMsg d)

/-- MBOX_DATA_WRITE (R455). -/
def execMboxDataWrite (d : Dev) (k val : Nat) (s : State) : Res :=
  s.onIf (hasMboxData k) (fun b => if b.clocked d then b.writeMboxData d k val else b)

/-- MBOX_TAKE (R455, R457). -/
def execMboxTake (d : Dev) (s : State) : Res := mboxWrite d s (fun b => b.takeMsg d)

/-- MBOX_TIMEOUT (R455). -/
def execMboxTimeout (d : Dev) (s : State) : Res := mboxWrite d s (fun b => b.mboxLate d)

/-- MBOX_ACK_POST (R455). -/
def execMboxAckPost (d : Dev) (s : State) : Res := mboxWrite d s (fun b => b.postAck d)

/-- MBOX_ACK_CLEAR (R453, R456): VALID cleared. -/
def execMboxAckClear (d : Dev) (s : State) : Res := mboxWrite d s (fun b => b.setFlag d offMboxAck 63 false)

/-- PING (R458). -/
def execPing (d : Dev) (s : State) : Res := s.on (fun b => b.onMsg d 1 (fun b m => b.doPing d m))

/-- GET_INFO (R458). -/
def execGetInfo (d : Dev) (s : State) : Res := s.on (fun b => b.onMsg d 2 (fun b m => b.doGetInfo d m))

/-- FW_LOAD (R458, R459). -/
def execFwLoad (d : Dev) (s : State) : Res := s.on (fun b => b.onMsg d 0x20 (fun b m => b.doFwLoad d m))

/-- FW_LOAD_DONE (R458, R459, R510). -/
def execFwLoadDone (d : Dev) (r : FwResult) (s : State) : Res := s.on (fun b => if b.inRun d then b.fwEnd d r else b)

/-- DBG_PEEK (R458). -/
def execDbgPeek (d : Dev) (s : State) : Res := s.on (fun b => b.onDebug d 0x40 (fun b m => b.doPeek d m))

/-- DBG_POKE (R458). -/
def execDbgPoke (d : Dev) (s : State) : Res := s.on (fun b => b.onDebug d 0x41 (fun b m => b.doPoke d m))

/-- DBG_TRACE (R458). -/
def execDbgTrace (d : Dev) (s : State) : Res := s.on (fun b => b.onDebug d 0x42 (fun b m => b.doTrace d m))

/-- UNKNOWN_MSG (R458, R459). -/
def execUnknownMsg (d : Dev) (s : State) : Res := s.on (fun b => b.unknownMsg d)

/-- DB_MASK_WRITE (R461). -/
def execDbMaskWrite (d : Dev) (val : Nat) (s : State) : Res := mboxWrite d s (fun b => b.writeDbMask d val)

end Sys2Proof.Machine
end

