-- ==== Sys2Proof/Machine/LathImage.lean ====
section
/-! DEFINITION. The lath image: its layout and every check of the loader (R335-R352, R361, R367). A check answers the failing
section-table index and the record within it, the lowest record of the earliest section. -/

namespace Sys2Proof.Machine

open Sys2Proof

/-! ## Layout (R336-R340) -/

/-- A section-table entry: its index, TYPE, OFFSET and LENGTH. -/
structure LSect where
  k   : Nat
  typ : Nat
  off : Nat
  len : Nat
  deriving DecidableEq, Repr

def imgKind (m : List Byte) : Nat := leAt m 6 1
def imgTotal (m : List Byte) : Nat := leAt m 8 4
def imgNsect (m : List Byte) : Nat := leAt m 12 2
def imgTarget (m : List Byte) : Nat := leAt m 14 2
def imgId (m : List Byte) : Nat := leAt m 16 8
def imgBase (m : List Byte) : Nat := leAt m 24 8
def imgSvn (m : List Byte) : Nat := leAt m 32 4
def imgBind (m : List Byte) : Nat := leAt m 40 8
def imgFull (m : List Byte) : Bool := imgKind m == 1

def imgSects (m : List Byte) : List LSect :=
  (upto (imgNsect m)).map (fun k => { k := k, typ := leAt m (256 + 16 * k) 2, off := leAt m (260 + 16 * k) 4, len := leAt m (264 + 16 * k) 4 })

def imgSect (m : List Byte) (t : Nat) : Option LSect := (imgSects m).find? (fun s => s.typ == t)

/-- Table index of a section, 0xFF where the image has none. -/
def sectNo (m : List Byte) (t : Nat) : Nat :=
  match imgSect m t with
  | some s => s.k
  | none => 0xFF

def imgTrailer (m : List Byte) : Nat := imgTotal m - 1088

/-- The bytes the signature and the digest cover. -/
def imgSigned (m : List Byte) : List Byte := m.take (imgTotal m - 512)

/-- The image digest D. -/
def imgDigest (m : List Byte) : Digest := Config.sha512 (imgSigned m)

/-- Entry size of a record section; 0 for the others. -/
def entSize (t : Nat) : Nat :=
  if t = 4 ∨ t = 5 ∨ t = 9 then 8 else if t = 6 ∨ t = 7 ∨ t = 10 then 16 else if t = 8 ∨ t = 12 ∨ t = 13 then 32 else 0

/-- Number of entries of a record section's table. -/
def entCount (t : Nat) : Nat :=
  match t with
  | 4 => 19200
  | 5 => 16383
  | 6 => 256
  | 7 => 4096
  | 8 => 64
  | 9 => 64
  | 10 => 2304
  | 12 => 512
  | _ => 256

/-- Records that fit a record section. -/
def recCount (m : List Byte) (s : LSect) : Nat := min (leAt m s.off 4) ((s.len - 16) / (8 + entSize s.typ))

def recOff (s : LSect) (r : Nat) : Nat := s.off + 16 + r * (8 + entSize s.typ)

/-- The records of a section: INDEX and entry. -/
def recsIn (m : List Byte) (s : LSect) : List (Nat × Nat) :=
  (upto (recCount m s)).map (fun r => (leAt m (recOff s r) 4, leAt m (recOff s r + 8) (entSize s.typ)))

def recsOf (m : List Byte) (t : Nat) : List (Nat × Nat) :=
  match imgSect m t with
  | some s => recsIn m s
  | none => []

/-- Quadword q of entry r of a section of 64 B entries. -/
def entQ (m : List Byte) (t r q : Nat) : Nat :=
  match imgSect m t with
  | some s => leAt m (s.off + 64 * r + 8 * q) 8
  | none => 0

/-- Quadword q of GLOBAL. -/
def globQ (m : List Byte) (q : Nat) : Nat := entQ m 1 0 q

/-- A byte of CALENDAR. -/
def imgCal (m : List Byte) (i : Nat) : Nat :=
  match imgSect m 14 with
  | some s => leAt m (s.off + i) 1
  | none => 0

/-- The program word of a tile. -/
def imgPipe (m : List Byte) (t : Nat) : Nat :=
  match imgSect m 11 with
  | some s => leAt m (s.off + 8 * t) 8
  | none => 0

/-- The partition entries of an image, each as eight quadwords. -/
def imgParts (m : List Byte) : List (List Nat) :=
  match imgSect m 2 with
  | some s => (upto (s.len / 64)).map (fun r => (upto 8).map (fun q => entQ m 2 r q))
  | none => []

/-! ## Partition entries (R342) -/

/-- Bits of quadword n of a partition entry. -/
def pf (e : List Nat) (n hi lo : Nat) : Nat := bits (e.getD n 0) hi lo

def pfValid (e : List Nat) : Bool := pf e 0 63 63 == 1
def pfMasked (e : List Nat) : Bool := pf e 0 62 62 == 1
def pfIndex (e : List Nat) : Nat := pf e 0 61 56
def pfId (e : List Nat) : Nat := pf e 0 55 44
def pfQset (e : List Nat) : Nat := pf e 0 43 39
def pfFirst (e : List Nat) : Nat := pf e 0 38 29
def pfSlots (e : List Nat) : Nat := pf e 0 28 18
def pfPorts (e : List Nat) : Nat := e.getD 1 0 + pf e 2 7 0 * 2 ^ 64
def pfRmem (e : List Nat) : Nat := pf e 2 23 8
def pfEngines (e : List Nat) : Nat := e.getD 3 0 + pf e 4 7 0 * 2 ^ 64
def pfWin (e : List Nat) : Bool := pf e 5 63 63 == 1
def pfBase (e : List Nat) : Nat := pf e 5 62 45
def pfLimit (e : List Nat) : Nat := pf e 5 44 27
def pfGroup (e : List Nat) : Nat := pf e 5 26 22
def pfNgroups (e : List Nat) : Nat := pf e 5 21 17

/-- Groups of a partition's pool. -/
def pfPool (e : List Nat) : List Nat := if pfMasked e && pfWin e then (upto (pfNgroups e)).map (fun k => pfGroup e + k) else []

/-- First entry of a list that a test refuses. -/
def firstBad {α : Type} (l : List α) (bad : α → Bool) : Option Nat :=
  (l.zip (upto l.length)).findSome? (fun x => if bad x.1 then some x.2 else none)

/-- First number below n that a test refuses. -/
def firstNo (n : Nat) (bad : Nat → Bool) : Option Nat := (upto n).find? bad

/-- A failing record placed in a section. -/
def inSect (m : List Byte) (t : Nat) (r : Option Nat) : Option (Nat × Nat) := r.map (fun x => (sectNo m t, x))

/-- A failure outside records, in a section. -/
def sectIf (m : List Byte) (t : Nat) (bad : Bool) : Option (Nat × Nat) := if bad then some (sectNo m t, 0) else none

/-- The failure of the earliest section of the table. -/
def earliest : List (Option (Nat × Nat)) → Option (Nat × Nat)
  | [] => none
  | none :: r => earliest r
  | some a :: r => match earliest r with
    | none => some a
    | some c => if c.1 < a.1 then some c else some a

/-! ## Format, sections, records (R336-R339) -/

/-- Codes 0x0010: the header. -/
def chkFormat (m : List Byte) (length : Nat) : Bool :=
  let t := imgTotal m
  !(leAt m 0 4 == 0x4854414C && leAt m 4 2 == 1 && (imgKind m == 1 || imgKind m == 2) && leAt m 7 1 == 0 && t % 64 == 0
    && decide (1472 ≤ t) && decide (t ≤ 4194304) && t == length && imgId m != 0 && leAt m 36 4 == 0
    && (slice m 48 208).all (fun x => x == 0#8)
    && (if imgFull m then imgTarget m == 0 && imgBase m == 0 else decide (1 ≤ imgTarget m) && decide (imgTarget m ≤ 0xFFE)))

/-- Whether the LENGTH of a section is one its type may have. -/
def lenOk (full : Bool) (s : LSect) : Bool :=
  match s.typ with
  | 1 => s.len == 64
  | 2 => s.len % 64 == 0 && decide (1 ≤ s.len / 64) && decide (s.len / 64 ≤ (if full then 64 else 1))
  | 3 => s.len == 4608
  | 11 => s.len == 144
  | 14 => s.len == 16640
  | _ => decide (16 ≤ s.len)

/-- Code 0x0011: the section table, and the indexes of records. -/
def chkSections (m : List Byte) : Option (Nat × Nat) :=
  let ss := imgSects m
  let full := imgFull m
  let low := (256 + 16 * imgNsect m + 63) / 64 * 64
  let absent := if full then [] else [1, 3, 11, 12, 13]
  let required := if full then [1, 2, 3, 4, 5, 11] ++ (if (imgParts m).any (fun e => pfValid e && pfMasked e) then [14] else []) else [2]
  let clash := fun (s t : LSect) => decide (t.k < s.k) && (t.typ == s.typ || (decide (s.off < t.off + t.len) && decide (t.off < s.off + s.len)))
  let bad := fun s : LSect => s.typ == 0 || decide (14 < s.typ) || absent.contains s.typ || leAt m (258 + 16 * s.k) 2 != 0
    || leAt m (268 + 16 * s.k) 4 != 0 || s.off % 64 != 0 || decide (s.off < low) || decide (imgTotal m - 1088 < s.off + s.len)
    || !lenOk full s || ss.any (fun t => clash s t)
  let wide := fun s : LSect => if entSize s.typ = 0 then none else (firstBad (recsIn m s) (fun e => decide (entCount s.typ ≤ e.1))).map (fun r => (s.k, r))
  if imgNsect m = 0 ∨ 14 < imgNsect m then some (0xFF, 0)
  else match ss.findSome? (fun s => if bad s then some (s.k, 0) else wide s) with
    | some e => some e
    | none => if required.all (fun t => ss.any (fun s => s.typ == t)) then none else some (0xFF, 0)

/-- Code 0x0030: the preambles and the order of records. -/
def chkRecords (m : List Byte) : Option (Nat × Nat) :=
  (imgSects m).findSome? (fun s =>
    if entSize s.typ = 0 then none
    else if leAt m s.off 4 = 0 ∨ leAt m (s.off + 4) 2 ≠ entSize s.typ ∨ (slice m (s.off + 6) 10).any (fun x => x != 0#8) = true
        ∨ s.len ≠ 16 + leAt m s.off 4 * (8 + entSize s.typ) then some (s.k, 0)
    else (firstNo (recCount m s) (fun r => leAt m (recOff s r + 4) 4 != 0
        || (decide (0 < r) && decide (leAt m (recOff s r) 4 ≤ leAt m (recOff s (r - 1)) 4)))).map (fun r => (s.k, r)))

/-! ## Reserved fields and encodings (R9) -/

/-- Whether the pairs of a MATCH use a reserved encoding. -/
def matchReserved (x : Nat) : Bool := bits x 17 0 != 0 || (decide (72 ≤ bits x 126 120) && bits x 126 120 != 127)

/-- Whether an entry of a record section has a reserved field that is not 0 or a reserved encoding. -/
def entReserved (t e : Nat) : Bool :=
  match t with
  | 4 => bits e 14 0 != 0 || (bitOf e 63 && bits e 54 43 == 0)
  | 5 => bits e 57 48 != 0 || bits e 35 0 != 0 || decide (4 ≤ bits e 62 60) || bits e 59 58 == 3
  | 6 => bits e 126 72 != 0
  | 7 => bits e 126 124 != 0 || bits e 111 72 != 0 || (bitOf e 127 && (bits e 123 112 == 0 || bits e 123 112 == 0xFFF))
  | 8 => bits e 251 192 != 0 || bits e 139 128 != 0 || bits e 75 64 != 0 || bits e 11 0 != 0
  | 9 => bits e 11 0 != 0
  | 10 => bits e 64 0 != 0
  | 12 => matchReserved (bits e 127 0) || bits e 186 128 != 0 || bits e 255 192 != 0 || bits e 191 190 == 3
  | _ => matchReserved (bits e 127 0) || bits e 187 128 != 0 || bits e 255 192 != 0

def partReserved (e : List Nat) : Bool :=
  pf e 0 17 0 != 0 || pf e 2 63 24 != 0 || pf e 4 63 8 != 0 || pf e 5 16 0 != 0 || e.getD 6 0 != 0 || e.getD 7 0 != 0
    || pfId e == 0 || pfId e == 0xFFF

/-- Quadwords of a port record with reserved bits. -/
def portReserved (m : List Byte) (n : Nat) : Bool :=
  (upto 3).any (fun q => bits (entQ m 3 n q) 63 48 != 0) || bits (entQ m 3 n 3) 63 46 != 0 || (upto 3).any (fun q => entQ m 3 n (5 + q) != 0)

def calReserved (m : List Byte) : Bool :=
  (upto 75).any (fun i => decide (16 ≤ imgCal m i) && imgCal m i != 0xFF) || (upto 53).any (fun i => imgCal m (75 + i) != 0)
    || (upto 16).any (fun c => match imgSect m 14 with
      | some s => bits (leAt m (s.off + 128 + 8 * c) 8) 40 0 != 0
      | none => false)
    || (upto 16384).any (fun i => decide (32 ≤ imgCal m (256 + i)) && imgCal m (256 + i) != 0xFF)

/-- Code 0x0031. -/
def chkReserved (m : List Byte) : Option (Nat × Nat) :=
  let r := (imgSects m).findSome? (fun s =>
    (match s.typ with
     | 1 => if (upto 7).any (fun q => globQ m (q + 1) != 0) then some 0 else none
     | 2 => firstBad (imgParts m) partReserved
     | 3 => firstNo 72 (portReserved m)
     | 11 => firstNo 18 (fun t => bits (imgPipe m t) 63 48 != 0 || (upto 12).any (fun st => decide (12 ≤ bits (imgPipe m t) (4 * st + 3) (4 * st))))
     | 14 => if calReserved m then some 0 else none
     | t => firstBad (recsIn m s) (fun e => entReserved t e.2)).map (fun x => (s.k, x)))
  match r with
  | some e => some e
  | none => if (slice m (imgTrailer m + 516) 60).any (fun x => x != 0#8) then some (0xFF, 0) else none

namespace Blk

/-! ## The tables in force and after the load -/

/-- Partition entries in force. -/
def partsInForce (b : Blk) : List (List Nat) := ((upto 64).map (fun i => (upto 8).map (fun q => b.partQ i q))).filter pfValid

/-- The target's entry in force. -/
def targetEntry (b : Blk) (m : List Byte) : Option (List Nat) := b.partsInForce.find? (fun e => pfId e == imgTarget m)

/-- The entry of a partial image. -/
def newEntry (m : List Byte) : List Nat := (imgParts m).headD []

/-- Partitions in force after the load. -/
def partsAfter (b : Blk) (m : List Byte) : List (List Nat) :=
  if imgFull m then (imgParts m).filter pfValid
  else b.partsInForce.filter (fun e => pfId e != imgTarget m) ++ [newEntry m].filter pfValid

/-- Entry n of a table in force, by section type. -/
def entInForce (b : Blk) (t n : Nat) : Nat :=
  let q := fun base k => (upto k).foldl (fun a j => a + (b.reg .sw (base + 8 * j)).toNat * 2 ^ (64 * j)) 0
  match t with
  | 4 => q (0x3100000 + 8 * n) 1
  | 5 => q (offRoute n) 1
  | 6 => q (offGroup n) 2
  | 7 => q (offMcast n) 2
  | 8 => q (offRed n) 4
  | 9 => q (offMarkProf n) 1
  | 10 => q (0x3200000 + 16 * n) 2
  | 12 => (b.sw.lath.opRules.get n 0).toNat
  | _ => (b.sw.lath.mirror.get n 0).toNat

/-- Whether a partial image removes its target. -/
def removes (m : List Byte) : Bool := !imgFull m && !pfValid (newEntry m)

/-- Whether a removal invalidates an entry: the target's multicast entries, and the queues and policers of a QSET it alone held (R364). -/
def wipedBy (b : Blk) (m : List Byte) (t n : Nat) : Bool :=
  removes m && match b.targetEntry m with
    | none => false
    | some e =>
      let alone := pfQset e != 0 && !(b.partsInForce.any (fun x => pfId x != pfId e && pfQset x == pfQset e))
      match t with
      | 4 => alone && n / 8 % 32 == pfQset e
      | 10 => alone && n % 32 == pfQset e
      | 7 => bits (b.entInForce 7 n) 123 112 == pfId e
      | _ => false

/-- Entry n of a table after the load. -/
def entAfter (b : Blk) (m : List Byte) (t n : Nat) : Nat :=
  match (recsOf m t).find? (fun e => e.1 == n) with
  | some e => e.2
  | none => if imgFull m || b.wipedBy m t n then 0 else b.entInForce t n

/-- GLOBAL's Q0 after the load. -/
def globAfter (b : Blk) (m : List Byte) : Nat := if imgFull m then globQ m 0 else (b.reg .sw offLathGlobal).toNat

/-- A byte of the calendar after the load; none in force reads as no calendar. -/
def calAfter (b : Blk) (m : List Byte) (i : Nat) : Nat :=
  if (imgSect m 14).isSome then imgCal m i else if imgFull m then (if i < 75 then 0xFF else 0) else b.calByte i

/-- Header of a calendar after the load. -/
def calHdr (b : Blk) (m : List Byte) (c : Nat) : Nat := (upto 8).foldl (fun a j => a + b.calAfter m (128 + 8 * c + j) * 2 ^ (8 * j)) 0

/-- The table entries after the load that a test refuses: a record of the image first, otherwise the section as a whole. -/
def badEnt (b : Blk) (m : List Byte) (t : Nat) (bad : Nat → Nat → Bool) : Option (Nat × Nat) :=
  match firstBad (recsOf m t) (fun e => bad e.1 e.2) with
  | some r => some (sectNo m t, r)
  | none => sectIf m t (!imgFull m && (upto (entCount t)).any (fun n => bad n (b.entAfter m t n)))

/-- A test of the partitions after the load: the failing entry of the image, or the section as a whole. -/
def badPart (b : Blk) (m : List Byte) (bad : List Nat → Bool) : Option (Nat × Nat) :=
  match firstBad (imgParts m) (fun e => pfValid e && bad e) with
  | some r => some (sectNo m 2, r)
  | none => sectIf m 2 ((b.partsAfter m).any bad)

/-! ## Authority (R352) -/

/-- The owner record the load began under (R389). -/
def loadOwner (b : Blk) : Option Owner := b.sw.lath.job.bind (fun j => j.owner)

def chkOwner (b : Blk) (m : List Byte) : Bool :=
  match b.loadOwner with
  | none => true
  | some o => Config.sha512 (slice m (imgTrailer m) 516) != o.keyDigest || leAt m (imgTrailer m + 512) 4 != 65537

def chkSignature (m : List Byte) : Bool :=
  !Config.pssVerify (slice m (imgTrailer m) 512) (imgSigned m) (slice m (imgTrailer m + 576) 512)

def chkSvn (b : Blk) (m : List Byte) : Bool :=
  match b.loadOwner with
  | none => true
  | some o => decide (imgSvn m < o.minSvn)

def chkBind (b : Blk) (m : List Byte) : Bool :=
  imgBind m != 0 && (match b.swc.idDigest with
    | some d => imgBind m != leNat ((beBytes 64 d.toNat).take 8)
    | none => true)

def chkBase (b : Blk) (m : List Byte) : Bool :=
  !imgFull m && !(b.flag .sw offLathStatus 4 && (b.reg .sw offLathId).toNat == imgBase m)

/-! ## Contents (R341-R351) -/

/-- Code 0x0040. -/
def chkGlobal (m : List Byte) : Option (Nat × Nat) :=
  let q := globQ m 0
  let v := bitOf q 61
  sectIf m 1 (imgFull m && (v != (bits q 46 29 != 0) || bits q 60 47 == 16383 || (!v && bits q 60 47 != 0) || decide (bits q 28 20 < 16)
    || bits q 19 0 % 2 != 0))

/-- Code 0x0041. -/
def chkPartition (b : Blk) (m : List Byte) : Option (Nat × Nat) :=
  let ps := b.partsAfter m
  let img := imgParts m
  let others := fun e => ps.filter (fun x => decide (x ≠ e))
  let bad := fun e : List Nat => (imgFull m && !pfValid e) || (pfValid e && (pfPorts e == 0
    || (pfMasked e && (pfQset e == 0 || (others e).any (fun x => pfQset x == pfQset e)))
    || (!pfMasked e && (others e).any (fun x => pfMasked x && pfQset x == pfQset e) && !imgFull m)
    || (pfMasked e && pfWin e && pfNgroups e == 0) || (!(pfMasked e && pfWin e) && (pfNgroups e != 0 || pfGroup e != 0))
    || (!imgFull m && (others e).any (fun x => pfIndex x == pfIndex e))))
  let dup := firstNo img.length (fun r => (upto r).any (fun j =>
    pfId (img.getD r []) == pfId (img.getD j []) || pfIndex (img.getD r []) == pfIndex (img.getD j [])))
  let tooMany := firstNo img.length (fun r => decide (16 < ((img.take (r + 1)).filter pfMasked).length))
  let r := [firstBad img bad, dup, tooMany].foldl (fun a x => match a, x with
    | none, y => y
    | y, none => y
    | some u, some v => some (min u v)) none
  match inSect m 2 r with
  | some e => some e
  | none => sectIf m 2 (decide (64 < ps.length) || decide (16 < (ps.filter pfMasked).length))

/-- SLOTS of a class of a port record. -/
def imgSlots (m : List Byte) (n c : Nat) : Nat := bits (entQ m 3 n (c / 2)) (24 * (c % 2) + 23) (24 * (c % 2))

def imgTc7 (m : List Byte) (n : Nat) : Nat := bits (entQ m 3 n 3) 45 24

/-- CELLS of a class (R255). -/
def imgCells (m : List Byte) (n c : Nat) : Nat := if c = 7 then imgTc7 m n else (5 * imgSlots m n c + 18) / 19

/-- Code 0x0042. -/
def chkCarve (m : List Byte) : Option (Nat × Nat) :=
  if !imgFull m then none
  else match firstNo 72 (fun n => (upto 7).any (fun c => decide (imgSlots m n c < 259)) || (imgTc7 m n != 0 && decide (imgTc7 m n < 65))) with
    | some n => some (sectNo m 3, n)
    | none => sectIf m 3 (decide (2558464 < (upto 72).foldl (fun a n => (upto 8).foldl (fun a c => a + imgCells m n c) a) 0))

/-- Whether the profile a queue entry names has been given by a record. -/
def profGiven (b : Blk) (m : List Byte) (t k : Nat) : Bool :=
  (recsOf m t).any (fun e => e.1 == k) || (!imgFull m && (if t = 8 then b.sw.lath.redGiven else b.sw.lath.markGiven).contains k)

/-- Code 0x0043. -/
def chkQueue (b : Blk) (m : List Byte) : Option (Nat × Nat) :=
  let ps := b.partsAfter m
  let held := fun q => ps.any (fun e => pfQset e == q)
  let maskedQ := fun q => ps.any (fun e => pfQset e == q && pfMasked e)
  let deepCount := fun eq => ((upto 256).filter (fun j => let x := b.entAfter m 4 (256 * eq + j); bitOf x 63 && bitOf x 62)).length
  let bad := fun n e =>
    let tc := n % 8
    let qset := n / 8 % 32
    let deep := bitOf e 62
    bitOf e 63 && (
      (deep && (tc == 0 || tc == 6 || maskedQ qset || decide (4 < deepCount (n / 256)) || bits e 42 27 == 0 || bits e 26 15 == 0))
      || (!deep && (bits e 42 27 != 0 || bits e 26 15 != 0))
      || (qset != 0 && !held qset)
      || (tc == 7 && !b.profGiven m 8 (bits e 60 55)) || (decide (1 ≤ tc) && decide (tc ≤ 3) && !b.profGiven m 9 (bits e 60 55)))
  let lacks := (upto 19200).any (fun n => (held (n / 8 % 32) || (n / 8 % 32 == 0 && n % 8 == 6)) && !bitOf (b.entAfter m 4 n) 63)
  match b.badEnt m 4 bad with
  | some e => some e
  | none => sectIf m 4 lacks

/-- Code 0x0044. -/
def chkRoute (b : Blk) (m : List Byte) : Option (Nat × Nat) :=
  let g := b.globAfter m
  let bad := fun n e =>
    let tgt := bits e 47 36
    bitOf e 63 && (match bits e 62 60 with
      | 0 => decide (72 ≤ tgt)
      | 1 => decide (256 ≤ tgt) || !bitOf (b.entAfter m 6 tgt) 127
      | 2 => tgt != 0 || !(bitOf g 61 && n == bits g 60 47)
      | _ => !bitOf (b.entAfter m 7 tgt) 127)
  let home := b.entAfter m 5 (bits g 60 47)
  earliest [b.badEnt m 5 bad, sectIf m 5 (bitOf g 61 && !(bitOf home 63 && bits home 62 60 == 2)),
    b.badEnt m 6 (fun _ e => bitOf e 127 && bits e 71 0 == 0)]

/-- Code 0x0045. -/
def chkMcast (b : Blk) (m : List Byte) : Option (Nat × Nat) :=
  let ps := b.partsAfter m
  b.badEnt m 7 (fun _ e => bitOf e 127 && (bits e 71 0 == 0 || (match ps.find? (fun p => pfId p == bits e 123 112) with
    | none => true
    | some p => (upto 72).any (fun n => bitOf e n && !bitOf (pfPorts p) n))))

/-- Code 0x0046. -/
def chkProfile (b : Blk) (m : List Byte) : Option (Nat × Nat) :=
  let ps := b.partsAfter m
  earliest [
    b.badEnt m 8 (fun _ e => decide (bits e 191 170 < bits e 169 148) || decide (bits e 127 106 < bits e 105 84) || decide (bits e 63 42 < bits e 41 20)
      || decide (bits e 127 106 < bits e 191 170) || decide (bits e 63 42 < bits e 127 106)),
    b.badEnt m 9 (fun _ e => decide (bits e 63 42 < bits e 41 20)),
    b.badEnt m 10 (fun n e => bitOf e 127 && (decide (bits e 111 97 < bits e 126 112) || decide (bits e 96 81 < 17) || decide (bits e 80 65 < 17)
      || !(ps.any (fun p => pfQset p == n % 32))))]

/-- Whether a pipeline program meets R244: every operation but NONE and OPERATOR once, each behind what it must follow. -/
def pipeOk (w : Nat) : Bool :=
  let op := fun s => bits w (4 * s + 3) (4 * s)
  let at_ := fun o => (upto 12).filter (fun s => op s == o)
  let pos := fun o => (at_ o).headD 12
  let after := fun o p => decide (pos p < pos o)
  let opers := at_ 0xB
  (upto 10).all (fun k => (at_ (k + 1)).length == 1) && op 0 == 1 && after 2 1 && after 3 2 && after 4 3 && after 5 1 && after 6 4
    && after 7 2 && after 8 4 && after 9 1 && after 0xA 6
    && opers.all (fun s => decide (s < pos 7) && decide (s < pos 0xA) && decide (pos 3 < s) && decide (pos 5 < s))

/-- Code 0x0047. -/
def chkPipeline (m : List Byte) : Option (Nat × Nat) :=
  if imgFull m then inSect m 11 (firstNo 18 (fun t => !pipeOk (imgPipe m t))) else none

/-- Whether a MATCH has a value with a bit outside its mask (R346). -/
def matchBad (x : Nat) : Bool :=
  let out := fun v k => v &&& k != v
  out (bits x 119 117) (bits x 116 114) || out (bits x 113 108) (bits x 107 102) || out (bits x 101 90) (bits x 89 78)
    || out (bits x 77 64) (bits x 63 50) || out (bits x 49 36) (bits x 35 22) || out (bits x 21 20) (bits x 19 18)

/-- Code 0x0048. -/
def chkRule (m : List Byte) : Option (Nat × Nat) :=
  earliest [
    inSect m 12 (firstBad (recsOf m 12) (fun e => matchBad (bits e.2 127 0)
      || (bitOf e.2 187 && !(bits e.2 116 114 == 7 && bits e.2 119 117 == 7)))),
    inSect m 13 (firstBad (recsOf m 13) (fun e => matchBad (bits e.2 127 0) || (bitOf e.2 127 && bits e.2 191 188 == 0)))]

/-- Code 0x0049. -/
def chkCalendar (b : Blk) (m : List Byte) : Option (Nat × Nat) :=
  let ps := b.partsAfter m
  let masked := ps.filter pfMasked
  let isM := fun q => masked.any (fun e => pfQset e == q)
  let hdr := b.calHdr m
  let valid := fun c => bitOf (hdr c) 63
  let len := fun c => bits (hdr c) 62 53 + 1
  let owner := fun c k => b.calAfter m (256 + 1024 * c + k)
  let calBad := fun c => valid c && (decide (bits (hdr c) 52 41 < 4)
    || (upto 1024).any (fun k => if k < len c then owner c k != 0xFF && !isM (owner c k) else owner c k != 0xFF)
    || !((upto (len c)).any (fun k => owner c k == 0xFF)))
  let eqBad := fun e =>
    let c := b.calAfter m e
    if c = 0xFF then !masked.isEmpty
    else !valid c || masked.any (fun p => !((upto (len c)).any (fun k => owner c k == pfQset p)))
  earliest [
    b.badEnt m 4 (fun n e => bitOf e 63 && (bitOf e 61 != isM (n / 8 % 32))),
    sectIf m 14 ((upto 16).any calBad || (upto 75).any eqBad)]

/-- Code 0x004A. -/
def chkHbm (b : Blk) (m : List Byte) : Option (Nat × Nat) :=
  let g := b.globAfter m
  let ps := b.partsAfter m
  let gran := bits g 46 29
  let size := fun e => pfLimit e + 1 - pfBase e
  let pools := ps.flatMap pfPool
  let bad := fun e : List Nat => pfWin e && (!bitOf g 61 || decide (pfLimit e < pfBase e) || decide (gran ≤ pfLimit e)
    || ps.any (fun x => pfId x != pfId e && pfWin x && decide (pfBase e ≤ pfLimit x) && decide (pfBase x ≤ pfLimit e))
    || (pfMasked e && (decide (pfNgroups e * 6912 < size e) || (pfPool e).any (fun k => decide (32 ≤ k))
        || ps.any (fun x => pfId x != pfId e && (pfPool x).any (fun k => (pfPool e).contains k)))))
  let shared := (ps.filter (fun e => pfWin e && !pfMasked e)).foldl (fun a e => a + size e) 0 + 512 * bits g 28 20 + bits g 19 0 / 2
  earliest [
    sectIf m 1 (imgFull m && decide (196608 < gran)),
    b.badPart m bad,
    sectIf m 2 (decide (30 < pools.length) || decide ((32 - pools.length) * 6912 < shared))]

/-- Code 0x004B. -/
def chkReduction (b : Blk) (m : List Byte) : Option (Nat × Nat) :=
  let ps := b.partsAfter m
  let bad := fun e : List Nat =>
    decide (1024 < pfFirst e + pfSlots e)
    || (if pfSlots e = 0 then pfEngines e != 0 || pfRmem e != 0 else pfEngines e == 0 || pfRmem e == 0)
    || ps.any (fun x => pfId x != pfId e && ((decide (pfFirst e < pfFirst x + pfSlots x) && decide (pfFirst x < pfFirst e + pfSlots e)
          && pfSlots e != 0 && pfSlots x != 0)
        || ((pfMasked e || pfMasked x) && pfEngines e &&& pfEngines x != 0)))
  match b.badPart m bad with
  | some e => some e
  | none => sectIf m 2 (decide (49152 < ps.foldl (fun a e => a + pfRmem e) 0))

/-! ## Scope of a partial image (R361) -/

/-- QSETs of the target, in force and new. -/
def targetQsets (b : Blk) (m : List Byte) : List Nat :=
  (match b.targetEntry m with
   | some e => [pfQset e]
   | none => []) ++ (if pfValid (newEntry m) then [pfQset (newEntry m)] else [])

/-- Whether a partition other than the target holds a QSET. -/
def heldByOther (b : Blk) (m : List Byte) (q : Nat) : Bool := b.partsInForce.any (fun e => pfId e != imgTarget m && pfQset e == q)

/-- Whether a queue entry of another partition's QSET names a profile, in force or after the load. -/
def namedByOther (b : Blk) (m : List Byte) (t k : Nat) : Bool :=
  (upto 19200).any (fun n =>
    let tc := n % 8
    let named := fun e => bitOf e 63 && bits e 60 55 == k && (if t = 8 then tc == 7 else decide (1 ≤ tc) && decide (tc ≤ 3))
    b.heldByOther m (n / 8 % 32) && (named (b.entInForce 4 n) || named (b.entAfter m 4 n)))

/-- Code 0x0050. -/
def chkScope (b : Blk) (m : List Byte) : Option (Nat × Nat) :=
  if imgFull m then none
  else
    let e := newEntry m
    let old := b.targetEntry m
    let qs := b.targetQsets m
    let partBad := pfId e != imgTarget m || (match old with
      | some o => pfMasked e != pfMasked o || pfGroup e != pfGroup o || pfNgroups e != pfNgroups o
          || (pfValid e && pfIndex e != pfIndex o) || (pfMasked o && !pfValid e)
      | none => !pfValid e || pfMasked e || pfGroup e != 0 || pfNgroups e != 0)
    let changed := fun t (r : Nat × Nat) => b.entInForce t r.1 != r.2
    let qBad := fun t (r : Nat × Nat) =>
      let q := if t = 4 then r.1 / 8 % 32 else r.1 % 32
      changed t r && (!qs.contains q || b.heldByOther m q)
    let newOnly := fun t v (r : Nat × Nat) => changed t r && (bitOf (b.entInForce t r.1) v || !bitOf r.2 v)
    let mcBad := fun (r : Nat × Nat) => changed 7 r && ((bitOf (b.entInForce 7 r.1) 127 && bits (b.entInForce 7 r.1) 123 112 != imgTarget m)
      || bits r.2 123 112 != imgTarget m)
    let calBad := (imgSect m 14).isSome && (upto 16640).any (fun i =>
      let x := b.calByte i
      let y := imgCal m i
      x != y && !(decide (256 ≤ i) && ((x == 0xFF && qs.contains y) || (y == 0xFF && qs.contains x))))
    earliest [
      sectIf m 2 partBad,
      inSect m 4 (firstBad (recsOf m 4) (qBad 4)), inSect m 10 (firstBad (recsOf m 10) (qBad 10)),
      inSect m 5 (firstBad (recsOf m 5) (newOnly 5 63)), inSect m 6 (firstBad (recsOf m 6) (newOnly 6 127)),
      inSect m 7 (firstBad (recsOf m 7) mcBad),
      inSect m 8 (firstBad (recsOf m 8) (fun r => changed 8 r && b.namedByOther m 8 r.1)),
      inSect m 9 (firstBad (recsOf m 9) (fun r => changed 9 r && b.namedByOther m 9 r.1)),
      sectIf m 14 calBad]

/-- Every check in the order of its code (R367): the code, the section and the record, or nothing. -/
def checkImage (b : Blk) (m : List Byte) (length : Nat) : Option (Nat × Nat × Nat) :=
  let out := fun (c : Nat) (bad : Bool) => if bad then some (c, 0xFF, 0) else none
  let put := fun (c : Nat) (r : Option (Nat × Nat)) => r.map (fun x => (c, x.1, x.2))
  [fun _ : Unit => out 0x10 (chkFormat m length),
   fun _ => put 0x11 (chkSections m),
   fun _ => out 0x20 (b.chkOwner m),
   fun _ => out 0x21 (chkSignature m),
   fun _ => out 0x22 (b.chkSvn m),
   fun _ => out 0x23 (b.chkBind m),
   fun _ => out 0x24 (b.chkBase m),
   fun _ => put 0x30 (chkRecords m),
   fun _ => put 0x31 (chkReserved m),
   fun _ => put 0x40 (chkGlobal m),
   fun _ => put 0x41 (b.chkPartition m),
   fun _ => put 0x42 (chkCarve m),
   fun _ => put 0x43 (b.chkQueue m),
   fun _ => put 0x44 (b.chkRoute m),
   fun _ => put 0x45 (b.chkMcast m),
   fun _ => put 0x46 (b.chkProfile m),
   fun _ => put 0x47 (chkPipeline m),
   fun _ => put 0x48 (chkRule m),
   fun _ => put 0x49 (b.chkCalendar m),
   fun _ => put 0x4A (b.chkHbm m),
   fun _ => put 0x4B (b.chkReduction m),
   fun _ => put 0x50 (b.chkScope m)].findSome? (fun f => f ())

end Blk

end Sys2Proof.Machine
end

