-- ==== Sys2Proof/Machine/LathLoad.lean ====
section
/-! DEFINITION. Loading a lath image: the message, measurement and log, the tables a full or a partial image writes, the image in
force, the lock (R353-R366, R379, R380, R387, R312, R401). -/

namespace Sys2Proof.Machine

open Sys2Proof

namespace Blk

def modLath (b : Blk) (f : Lath → Lath) : Blk := b.modSw (fun s => { s with lath := f s.lath })

def imageInForce (b : Blk) : Bool := b.flag .sw offLathStatus 4

def setLathState (b : Blk) (v : Nat) : Blk := b.setFld .sw offLathStatus 3 0 v

/-! ## The message (R354, R355, R357) -/

/-- Code, section and record of a load that has ended, its acknowledge, and the lath interrupt. -/
def loadEnds (b : Blk) (m : List Byte) (code sect record : Nat) : Blk :=
  let b := ((b.setFld .sw offLathStatus 63 48 code).setFld .sw offLathStatus 47 40 sect).setFld .sw offLathStatus 39 8 record
  ((b.modLath (fun l => { l with job := none })).ack .sw m code []).ring .sw 3

/-- A load that fails: nothing in force has changed. -/
def loadFails (b : Blk) (m : List Byte) (code sect record : Nat) : Blk :=
  ((b.count .sw offLathInfo 15 0 1).setLathState (if b.imageInForce then 5 else 0)).loadEnds m code sect record

/-- Step 1: the load begins, or its buffer cannot be read. `part` is what the header and the partition entry of a PARTIAL image at ADDR say: TARGET,
and the first slot and number of slots of its new range (R365, log 151). -/
def loadBegin (b : Blk) (m : List Byte) (part : Option (Nat × Nat × Nat)) : Blk :=
  let len := msgArg m 8 4
  if msgArg m 0 8 % 4096 ≠ 0 ∨ len < 1472 ∨ 4194304 < len ∨ b.canDma .sw = false then b.loadFails m 3 0xFF 0
  else
    let (pid, slots) := part.getD (0, 0, 0)
    let j : LathJob := { msg := m, owner := b.sw.lath.owner, image := none, partial_ := part.isSome, target := pid,
                         idx := (b.partIndex pid).getD 64, newSlots := slots, cleared := [] }
    (b.setLathState 1).modLath (fun l => { l with job := some j })

/-- LATH_LOAD: held until start-up has ended (R508), one at a time, not in a hold. -/
def doLathLoad (b : Blk) (m : List Byte) (part : Option (Nat × Nat × Nat)) : Blk :=
  if !msgReserved m 12 then b.ack .sw m 0x103 []
  else if b.sw.lath.job.isSome || b.sw.lath.heldMsg.isSome then b.ack .sw m 1 []
  else if b.inSupplyHold then b.ack .sw m 2 []
  else if !b.swc.boot.started then b.modLath (fun l => { l with heldMsg := some m })
  else b.loadBegin m part

/-! ## Measurement (R353, R387) -/

def digestBytes (d : Digest) : List Byte := beBytes 64 d.toNat

/-- A register extended with a digest. -/
def extend (r d : Digest) : Digest := Config.sha512 (digestBytes r ++ digestBytes d)

/-- The lath register extended and the log entry appended; a full log drops its oldest entry. -/
def measure (b : Blk) (m : List Byte) : Blk :=
  let e : LathLogEnt := { imageId := imgId m, baseId := imgBase m, kind := imgKind m, svn := imgSvn m, time := b.timeNs .sw, d := imgDigest m }
  b.modLath (fun l =>
    let l := match l.log with
      | o :: rest => if 1024 ≤ l.log.length then { l with log := rest, first := l.first + 1, baseVal := extend l.baseVal o.d } else l
      | [] => l
    { l with reg := extend l.reg (imgDigest m), log := l.log ++ [e] })

/-! ## The lock and what depends on the partitions (R379-R381) -/

/-- SW_SEC_STATE and PWR_STATUS brought in line with the partitions and the groups being cleared; the lock lifted when nothing keeps it. -/
def refreshSec (b : Blk) : Blk :=
  let n := ((upto 64).filter (fun i => b.partMasked i)).length
  let b := (b.setFld .sw offSecState 31 24 n).setFlag .sw offSecState 1 (!b.sw.lath.clearing.isEmpty)
  b.refreshMasked

/-- The lock lifts (R380): no masked partition in force, every group cleared, the key slots of removed partitions erased. -/
def tryUnlock (b : Blk) : Blk :=
  let keysGone := b.swc.keys.all (fun e => b.partValid e.1 || (e.2.cur.isNone && e.2.otherKey.isNone))
  if !b.anyMasked && b.sw.lath.clearing.isEmpty && keysGone && b.sw.lath.job.isNone then b.setFlag .sw offSecState 0 false else b

/-! ## Tables -/

/-- Registers outside a run of offsets kept, those inside set to their reset values. -/
def clearRegs (b : Blk) (lo hi : Nat) : Blk :=
  b.modCore .sw (fun c => { c with regs := c.regs.filter (fun e => decide (e.1 < lo) || decide (hi ≤ e.1)) })

/-- Entry n of a table written. -/
def putEntry (b : Blk) (t n v : Nat) : Blk :=
  let q := fun base k => (upto k).foldl (fun (b : Blk) j => b.putReg .sw (base + 8 * j) (v / 2 ^ (64 * j))) b
  match t with
  | 4 => q (0x3100000 + 8 * n) 1
  | 5 => q (offRoute n) 1
  | 6 => q (offGroup n) 2
  | 7 => q (offMcast n) 2
  | 8 => (q (offRed n) 4).modLath (fun l => { l with redGiven := addNew l.redGiven n })
  | 9 => (q (offMarkProf n) 1).modLath (fun l => { l with markGiven := addNew l.markGiven n })
  | 10 => if b.entInForce 10 n = v then b else (q (0x3200000 + 16 * n) 2).modSw (fun s => { s with policers := s.policers.erase n })
  | 12 => b.modLath (fun l => { l with opRules := l.opRules.set n (BitVec.ofNat 256 v) 0 })
  | _ => b.modLath (fun l => { l with mirror := l.mirror.set n (BitVec.ofNat 256 v) 0 })

/-- The records of every record section of an image written. -/
def putRecords (b : Blk) (m : List Byte) : Blk :=
  b.forEach [4, 10, 8, 9, 6, 7, 5, 12, 13] (fun b t => b.forEach (recsOf m t) (fun b e => b.putEntry t e.1 e.2))

/-- The calendar written from bytes. -/
def putCalendar (b : Blk) (f : Nat → Nat) : Blk :=
  b.forBelow 2080 (fun b i => b.putReg .sw (offCalendar + 8 * i) ((upto 8).foldl (fun a j => a + f (8 * i + j) * 2 ^ (8 * j)) 0))

/-- SW_FMEM_PART_i_WIN of an entry, before its window is READY (R311). -/
def winWord (e : List Nat) : Nat :=
  if pfWin e then
    2 ^ 63 + b2n (pfMasked e) * 2 ^ 62 + pfBase e * 2 ^ 44 + pfLimit e * 2 ^ 26
      + (if pfMasked e then pfGroup e * 2 ^ 21 + pfNgroups e * 2 ^ 16 else 0)
  else 0

/-- A partition's entry written, or cleared; the partition is RUNNING, or there is none. -/
def putPartition (b : Blk) (i : Nat) (e : List Nat) : Blk :=
  let b := b.forBelow 8 (fun b q => b.putReg .sw (offPartCfg i q) (e.getD q 0))
  b.setFld .sw (offPartState i) 1 0 (if pfValid e then 1 else 0)

/-- The six counters of every class of a partition zeroed (R304). -/
def zeroCounters (b : Blk) (i : Nat) : Blk := b.clearRegs (0x600800 + 0x1000 * i) (0x600980 + 0x1000 * i)

/-- The exception entries of a partition freed, its sweep ended (R326, R362). -/
def dropWindow (b : Blk) (i : Nat) : Blk :=
  let b := b.forBelow 64 (fun b n => if b.ueValid n && b.uePart n == i then b.putReg .sw (offUe n) 0 else b)
  ((b.putReg .sw (offFmemSweep i) 0).putReg .sw (offFmemOld i) 0).putReg .sw (offFmemWin i) 0

/-- Cells of the fixed reserves of the packet buffer: answers, internal sources, refill, sampling (R257). -/
def fixedReserves : Nat := 72 * 64 + 3 * 8192 + 32768 + 1024

/-- The registers the port, global and pipeline sections set (R255, R265, R309, R299, R246). -/
def putFixed (b : Blk) (m : List Byte) : Blk :=
  let g := globQ m 0
  let pools := ((imgParts m).flatMap pfPool).length
  let b := b.putReg .sw offLathGlobal g
  let b := b.putReg .sw offHbmCarve (bits g 46 29 * 2 ^ 46 + bits g 28 20 * 2 ^ 37 + bits g 19 0 * 2 ^ 12 + pools)
  let b := b.setFld .sw offSwatchCtl 63 32 (bits g 19 0)
  let carves := (upto 72).foldl (fun a n => (upto 8).foldl (fun a c => a + imgCells m n c) a) 0
  let b := b.setFld .sw offPbuf 43 22 (carves + fixedReserves)
  let b := b.when_ (bits g 19 0 == 0) (fun b => b.setFlag .sw offSwatchCtl 0 false)
  let b := b.forBelow 72 (fun b n =>
    let b := b.forBelow 8 (fun b c => b.putReg .sw (offPort .sw n (0x800 + 8 * c)) (imgCells m n c * 2 ^ 24 + (if c = 7 then 0 else imgSlots m n c)))
    b.putReg .sw (offPort .sw n 0x840) (entQ m 3 n 4))
  b.forBelow 18 (fun b t => b.forBelow 12 (fun b st => b.putReg .sw (offTileStage t st) (bits (imgPipe m t) (4 * st + 3) (4 * st) * 2 ^ 32)))

/-! ## A full image (R356) -/

/-- Step 6: what is in force stops. -/
def stopForRelath (b : Blk) : Blk :=
  let b := (b.setBsy .sw 13 true).abortParts 3
  let b := b.forBelow 64 (fun b i => b.abortFinish i)
  let b := b.forBelow 72 (fun b n => if b.lstate .sw n = 1 ∨ b.lstate .sw n = 2 ∨ b.lstate .sw n = 3 then
    (b.linkDown .sw n 7).setFld .sw (offPort .sw n 0) 63 60 0 else b)
  let b := b.forEach b.partsInForce (fun b e => b.purgePart (pfId e))
  b.forBelow 64 (fun b i => b.setFlag .sw (offFmemWin i) 0 false)

/-- Steps 7 to 9: the tables of a full image, ports brought up, the windows to be cleared. -/
def applyFull (b : Blk) (m : List Byte) : Blk :=
  let b := if b.imageInForce then b.stopForRelath else b
  let b := b.setLathState 3
  let old := b.partsInForce.flatMap pfPool
  let new := (imgParts m).flatMap pfPool
  let b := (b.clearRegs 0x1000000 0x1040000).clearRegs 0x3000000 0x3304100
  let b := b.modLath (fun l => { l with
    opRules := [], mirror := [], redGiven := [], markGiven := [],
    clearing := l.clearing ++ old.filter (fun g => !new.contains g && !l.clearing.contains g) })
  let b := b.modSw (fun s => { s with policers := [], strict := [], arbs := [], badLines := [], scrubbed := [] })
  let b := b.forBelow 64 (fun b i => ((b.putPartition i []).dropWindow i).zeroCounters i)
  let b := (b.putRecords m).putFixed m
  let b := b.putCalendar (fun i => if (imgSect m 14).isSome then imgCal m i else if i < 75 then 0xFF else 0)
  let b := b.forEach (imgParts m) (fun b e => (b.putPartition (pfIndex e) e).putReg .sw (offFmemWin (pfIndex e)) (winWord e))
  let b := b.when_ ((imgParts m).any pfMasked) (fun b => b.setFlag .sw offSecState 0 true)
  let b := b.refreshSec
  let b := b.forBelow 72 (fun b n => if b.lstate .sw n = 4 ∨ b.lstate .sw n = 5 then b else b.startTraining .sw n)
  let wins := ((imgParts m).filter pfWin).map pfIndex
  let b := (b.setFlag .sw offHbmStatus 8 (!wins.isEmpty)).setLathState 4
  b.modLath (fun l => { l with job := l.job.map (fun j => { j with image := some m, partial_ := false, cleared := wins }) })

/-! ## A partial image (R361-R364) -/

/-- Whether a partial image is additive (R362). -/
def additive (b : Blk) (m : List Byte) : Bool :=
  b.targetEntry m == some (newEntry m)
    && [4, 8, 9, 10].all (fun t => (recsOf m t).all (fun e => b.entInForce t e.1 == e.2))
    && ((imgSect m 14).isNone || (upto 16640).all (fun i => b.calByte i == imgCal m i))

/-- The queue, policer and multicast entries a removal invalidates. -/
def wipeRemoved (b : Blk) (m : List Byte) : Blk :=
  b.forEach [4, 10, 7] (fun b' t => b'.forEach ((upto (entCount t)).filter (fun n => b.wipedBy m t n)) (fun b' n => b'.putEntry t n 0))

/-- Steps 3 to 5. -/
def applyPartial (b : Blk) (m : List Byte) : Blk :=
  let e := newEntry m
  let old := b.targetEntry m
  let i := match old with
    | some o => pfIndex o
    | none => pfIndex e
  let sameWin := match old with
    | some o => pfWin o == pfWin e && pfBase o == pfBase e && pfLimit o == pfLimit e
    | none => false
  let b := (b.when_ (old.isSome && !b.additive m) (fun b => (b.abortTrigger i 4).purgePart (imgTarget m))).abortFinish i
  let b := b.setLathState 3
  let b := if removes m then (((b.wipeRemoved m).putPartition i []).dropWindow i).putKey .sw i KeyEnt.empty else b
  let b := b.putRecords m
  let b := b.when_ (imgSect m 14).isSome (fun b => b.putCalendar (imgCal m))
  let clears := pfValid e && pfWin e && !sameWin
  let b := if removes m then b
    else
      let b := b.when_ old.isNone (fun b => (b.zeroCounters i).putKey .sw i KeyEnt.empty)
      let b := b.when_ (!sameWin) (fun b => (b.dropWindow i).putReg .sw (offFmemWin i) (winWord e))
      b.putPartition i e
  let b := (b.refreshSec.setFlag .sw offHbmStatus 8 clears).setLathState 4
  b.modLath (fun l => { l with job := l.job.map (fun j => { j with
    image := some m, partial_ := true, target := imgTarget m, idx := i,
    newSlots := if pfValid e then (pfFirst e, pfSlots e) else (0, 0), cleared := if clears then [i] else [] }) })

/-! ## In force (R356 step 10, R363 step 6) -/

/-- The keys, bindings and pending flips of every partition erased (R401). -/
def eraseKeys (b : Blk) : Blk :=
  let b := b.forBelow 64 (fun b i => b.putReg .sw (offFmemKey i) 0)
  b.modCore .sw (fun c => { c with keys := [] })

/-- The image is in force: windows READY, STATE, IDs, acknowledge, the lath interrupt. -/
def inForce (b : Blk) (j : LathJob) (m : List Byte) : Blk :=
  let b := b.forEach j.cleared (fun b i => b.setFlag .sw (offFmemWin i) 0 true)
  let b := b.setFlag .sw offHbmStatus 8 false
  let b := b.when_ (imgFull m) (fun b => b.eraseKeys)
  let b := (b.setLathState 5).setFlag .sw offLathStatus 4 true
  let b := (b.putReg .sw offLathId (imgId m)).setFld .sw offLathInfo 63 32 (imgSvn m)
  let b := b.wrapCount .sw offLathInfo 31 16 1
  let b := (b.loadEnds j.msg 0 0 0).tryUnlock
  b.when_ (imgFull m) (fun b => (b.setFlag .sw offStatus 13 false).setBsy .sw 14 false)

/-- A group that left a masked pool is INIT throughout (R380). -/
def groupCleared (b : Blk) (g : Nat) : Blk :=
  ((b.modLath (fun l => { l with clearing := without l.clearing g })).refreshSec).tryUnlock

end Blk

/-- Lines of the windows being cleared: INIT (R312). -/
def State.clearWindows (s : State) : State :=
  match s.b.sw.lath.job with
  | none => s
  | some j =>
    let inWin := fun l => j.cleared.any (fun i => decide (s.b.winFirst i ≤ l) && decide (l ≤ s.b.winLast i))
    { s with fmem := s.fmem.filter (fun e => !inWin e.1),
             b := s.b.modSw (fun w => { w with badLines := w.badLines.filter (fun l => !inWin l) }) }

/-- The image is in staging memory: checked, measured, applied. -/
def State.imageFetched (s : State) (image : Option (List Byte)) : State :=
  match s.b.sw.lath.job with
  | none => s
  | some j =>
    if j.image.isSome || s.b.inSupplyHold then s
    else match image with
      | none => { s with b := s.b.loadFails j.msg 3 0xFF 0 }
      | some raw =>
        let len := msgArg j.msg 8 4
        let m := padTo len raw
        match (s.b.setLathState 2).checkImage m len with
        | some (c, sect, record) => { s with b := s.b.loadFails j.msg c sect record }
        | none =>
          let b := s.b.measure m
          if imgFull m then { s with b := b.applyFull m, fmem := [] } else ({ s with b := b.applyPartial m }).clearWindows

/-! ## Meanings -/

/-- LATH_LOAD (R354, R355, R458). -/
def execLathLoad (part : Option (Nat × Nat × Nat)) (s : State) : Res := s.on (fun b => b.onMsg .sw 0x10 (fun b m => b.doLathLoad m part))

/-- LATH_IMAGE_FETCHED (R335-R353, R356, R357, R361-R364, R379). -/
def execLathImageFetched (image : Option (List Byte)) (s : State) : Res := .next (if s.b.inRun .sw then s.imageFetched image else s)

/-- LATH_IN_FORCE (R356, R358, R359, R363, R401). -/
def execLathInForce (s : State) : Res := s.onSw true (fun b =>
  match b.sw.lath.job with
  | none => b
  | some j => match j.image with
    | some m => if b.inRun .sw && !b.inSupplyHold then b.inForce j m else b
    | none => b)

/-- GROUP_CLEAR_DONE (R380). -/
def execGroupClearDone (g : Nat) (s : State) : Res := s.onIf (hasGroup g) (fun b => if b.inRun .sw then b.groupCleared g else b)

end Sys2Proof.Machine
end

