-- ==== Sys2Proof/Machine/StartUp.lean ====
section
/-! DEFINITION. Clock loss, resets and start-up, UCIe and SMBus (R7, R334, R382, R383, R385, R388, R431, R440, R475-R481, R495, R496,
R499, R507-R513, R518, R523). -/

namespace Sys2Proof.Machine

open Sys2Proof

namespace Blk

def modBoot (b : Blk) (d : Dev) (f : Boot → Boot) : Blk := b.modCore d (fun c => { c with boot := f c.boot })

def boot (b : Blk) (d : Dev) : Boot := (b.core d).boot

/-! ## Reset (R7, R511) -/

/-- A part at its reset values: RESET_CAUSE names the cause, CLOCK_LOST_SEEN stays unless power came back, the pins stay, and what SPI
flash holds stays. -/
def resetPart (b : Blk) (d : Dev) (cause : Nat) (power : Bool) : Blk :=
  let seen := if power then 0 else b.fld d offCptStatus 59 59
  let o := b.boot d
  let c : Core := { Core.reset with
    regs := [(offCptStatus, BitVec.ofNat 64 (cause * 2 ^ 60 + seen * 2 ^ 59))],
    boot := { Boot.off with perst := o.perst, noRef := o.noRef, uv := o.uv } }
  let b := b.setCore d c
  match d with
  | .sw => b.modSw (fun s => { Sw.reset with
      lath := { Lath.empty with flashOwner := s.lath.flashOwner }, rand := s.rand,
      patch := { Sw.reset.patch with flash := s.patch.flash } })
  | .ep => b.modEp (fun e => { Ep.reset with node := e.node })

/-- Steps 1 to 3 of start-up (R508, R509): reset over and REFCLK there, the PLLs lock and PCIe trains. -/
def tryRelease (b : Blk) (d : Dev) : Blk :=
  let o := b.boot d
  if o.perst || o.noRef || o.uv || o.released then b
  else
    let b := (b.setFlag d offCptStatus 40 true).setFld d offCptStatus 7 0 (match d with | .sw => 0x7F | .ep => 0x7B)
    let b := b.modCore d (fun c => { c with pcieUp := true })
    b.modBoot d (fun o => { o with released := true })

/-- PERST_N asserted: the part resets, after clock loss once REFCLK has returned (R481). -/
def perstDown (b : Blk) (d : Dev) : Blk :=
  let o := b.boot d
  let b := b.modBoot d (fun o => { o with perst := true })
  if o.perst || o.uv then b
  else if o.halt == .clockLost && o.noRef then b.modBoot d (fun o => { o with resetDue := true })
  else b.resetPart d 2 false

/-- PERST_N released. -/
def perstUp (b : Blk) (d : Dev) : Blk := (b.modBoot d (fun o => { o with perst := false })).tryRelease d

/-- Power applied: everything but the flash at its reset value, PERST_N asserted (R507). -/
def powerUp (b : Blk) (d : Dev) : Blk :=
  let b := b.resetPart d 1 true
  b.modBoot d (fun _ => Boot.off)

/-- The reset of R495 or R496 begins. -/
def railReset (b : Blk) (d : Dev) : Blk :=
  if (b.boot d).uv then b else (b.resetPart d 3 false).modBoot d (fun o => { o with uv := true })

/-- It ends: collapsed rails read as power-on. -/
def railsBack (b : Blk) (d : Dev) (held : Bool) : Blk :=
  if (b.boot d).uv then
    let b := b.modBoot d (fun o => { o with uv := false })
    let b := if held then b else (b.setFld d offCptStatus 63 60 1).setFlag d offCptStatus 59 false
    b.tryRelease d
  else b

/-! ## Clock loss (R479, R480) -/

def ClockCause.code : ClockCause → Nat
  | .refclk => 0
  | .pll k => 1 + k

/-- Steps 2 to 5 of R479: a load in progress is abandoned (R360). -/
def clockLost (b : Blk) (d : Dev) (c : ClockCause) : Blk :=
  let o := b.boot d
  let b := match c with
    | .refclk => (b.modBoot d (fun o => { o with noRef := true })).setFlag d offCptStatus 40 false
    | .pll k => if k < 7 then b.setFlag d offCptStatus k false else b
  if !o.released || o.halt == .safe || o.halt == .clockLost then b
  else
    let b := (b.setFlag d offStatus 11 true).refreshReady d true
    let b := (b.setFlag d offCptStatus 39 true).setFlag d offStatus 9 true
    let b := match d with
      | .sw => b.modLath (fun l => { l with job := none, heldMsg := none })
      | .ep => b
    (b.modBoot d (fun o => { o with clockCause := ClockCause.code c })).quiet d .clockLost

/-- PCIe configuration space at its reset values (R440). -/
def configReset (b : Blk) (d : Dev) (linkUp : Bool) : Blk :=
  b.modCore d (fun c => { c with busMaster := false, msixEn := false, pcieUp := linkUp })

/-- REFCLK has run 10 ms without a gap. -/
def refclkBack (b : Blk) (d : Dev) : Blk :=
  let b := b.modBoot d (fun o => { o with noRef := false })
  let o := b.boot d
  if o.halt == .clockLost then
    if o.resetDue then (b.resetPart d 2 false).tryRelease d
    else
      let b := (b.setFlag d offCptStatus 40 true).setFld d offCptStatus 7 0 (match d with | .sw => 0x7F | .ep => 0x7B)
      let b := (b.configReset d true).modBoot d (fun o => { o with halt := .waitPerst })
      let b := b.setFlag d offCptStatus 59 true
      let b := b.errRecord d { cls := 3, source := 0x10, event := 1, action := 16, inst := 0, part := 0, detail := o.clockCause }
      (b.deviceFatal d 0x10).cptEvent d 8
  else b.tryRelease d

/-- A load whose image is still being read ends with FETCH when DMA stops (R440). -/
def dmaLost (b : Blk) (d : Dev) : Blk :=
  match d, b.sw.lath.job with
  | .sw, some j => if j.image.isNone then b.loadFails j.msg 3 0xFF 0 else b
  | _, _ => b

/-- Hot Reset, Link Disable or loss of the PCIe link. -/
def linkReset (b : Blk) (d : Dev) (linkUp : Bool) : Blk := (b.configReset d linkUp).dmaLost d

/-! ## Start-up (R508-R510) -/

/-- The boot ROM has read the firmware image: its register, or the recovery state. -/
def romVerified (b : Blk) (d : Dev) (valid : Bool) (dg : Digest) : Blk :=
  if (b.boot d).romOk || b.recovery d then b
  else if valid then
    (b.modBoot d (fun o => { o with romOk := true })).modCore d (fun c => { c with
      fwDigest := dg, fwReg := Config.sha512 (zeros 64 ++ digestBytes dg) })
  else
    let t := b.timeNs d
    ((b.setFlag d offStatus 8 true).setFlag d offSecState 5 true).modCore d (fun c => { c with fwStart := t })

/-- A failed position: out of service, one spare fewer. -/
def applyFailed (b : Blk) (p : Nat) : Blk := if p < 20 ∧ b.posFailed p = false then (b.failPos p).spendSpare else b

/-- A tile whose position has failed moves to the lowest spare, or fails (R430, R431). -/
def placeTile (b : Blk) (t : Nat) : Blk :=
  let old := b.tilePos t
  if !b.posFailed old then b
  else match (upto 20).find? (fun p => !b.posActive p && !b.posFailed p) with
    | some p => ((b.setFlag .sw offPatchStatus (24 + old) false).setFlag .sw offPatchStatus (24 + p) true).setFld .sw (offTileStatus t) 63 59 p
    | none => b.tileFails t

/-- Firmware starts (steps 4 and 5): the time it keeps for GET_INFO; on the switch the failed positions, the self-tests, the HBM stacks. -/
def fwStarts (b : Blk) (d : Dev) (failed : List Nat) : Blk :=
  let o := b.boot d
  if !o.romOk || o.fw then b
  else
    let t := b.timeNs d
    let n := b.now d
    let b := b.modCore d (fun c => { c with fwStart := t, boot := { c.boot with fw := true }, servo := { c.servo with lastGood := n } })
    match d with
    | .ep => b
    | .sw =>
      let b := b.forEach (b.sw.patch.flash ++ failed) (fun b p => b.applyFailed p)
      (b.forBelow 18 (fun b t => b.placeTile t)).setFld .sw offHbmStatus 5 0 0x3F

/-- Step 7 of R509: identity and UCIe are there. -/
def epStartDone (b : Blk) : Blk :=
  let o := b.boot .ep
  if o.fw && o.ident && b.ep.trained && !o.started then
    let b := (b.modBoot .ep (fun o => { o with started := true })).setBsy .ep 14 false
    b.forBelow 4 (fun b n => b.startTraining .ep n)
  else b

/-- Number of a part in what differs from part to part (R382). -/
def devNo : Dev → Nat
  | .sw => 0
  | .ep => 1

/-- The identity is derived, the same at every start, or derivation fails (R382, R383, R513). The certificate in flash matches it or not. -/
def identDone (b : Blk) (d : Dev) (r : IdentResult) : Blk :=
  let o := b.boot d
  if !o.fw || o.ident || b.flag d offSecState 2 then b
  else match r with
    | .failed =>
      let b := b.setFlag d offSecState 2 true
      let b := b.errRecord d { cls := 3, source := 0x12, event := 1, action := 1, inst := 0, part := 0, detail := 0 }
      b.deviceFatal d 0x12
    | .ok =>
      let dg := Config.idDigest (devNo d)
      let certMatches := decide (Config.certKey (devNo d) = dg)
      let b := b.modCore d (fun c => { c with idDigest := some dg, certOk := certMatches, boot := { c.boot with ident := true } })
      let b := b.setFlag d offSecState 3 true
      let b := b.when_ (!certMatches) (fun b =>
        b.errRecord d { cls := 1, source := 0x12, event := 2, action := 0, inst := 0, part := 0, detail := 0 })
      match d with
      | .sw => b
      | .ep => b.epStartDone

/-- Step 7 of R508: the owner record of the flash, and a LATH_LOAD held since firmware started. -/
def swStartDone (b : Blk) (ownerValid : Bool) : Blk :=
  let o := b.boot .sw
  if !o.fw || !o.ident || o.started then b
  else
    let b := b.modBoot .sw (fun o => { o with started := true })
    let b := b.modLath (fun l => { l with owner := if ownerValid then l.flashOwner else none })
    let b := b.setFlag .sw offSecState 4 b.sw.lath.owner.isSome
    match b.sw.lath.heldMsg with
    | none => b
    | some m =>
      let b := b.modLath (fun l => { l with heldMsg := none })
      if b.inSupplyHold then b.ack .sw m 2 [] else b.loadBegin m none

/-- All four UCIe modules have trained (R523). -/
def ucieUp (b : Blk) : Blk :=
  if (b.boot .ep).fw && !b.ep.trained then (b.modEp (fun e => { e with trained := true, ucie := [] })).epStartDone else b

/-- A module leaves the active state; it is listed until it is back. -/
def ucieOut (b : Blk) (m : Nat) : Blk := if b.ep.trained then b.modEp (fun e => { e with ucie := addNew e.ucie m }) else b

def ucieBack (b : Blk) (m : Nat) : Blk := b.modEp (fun e => { e with ucie := without e.ucie m })

/-- SMBus Block Read (R518): byte count 8 and the register, or no acknowledge; silent without its clocks. -/
def smbus (b : Blk) (d : Dev) (cmd : Nat) : Blk :=
  let off := if cmd = 0x10 then some offStatus else if cmd = 0x11 then some offCptStatus else if cmd = 0x12 then some offPwrStatus else none
  if !b.clocked d || (b.boot d).noRef then b
  else match off with
    | some o => b.emit (.smbus d (8#8 :: leBytes 8 (b.reg d o).toNat))
    | none => b.emit (.smbusNak d)

end Blk

/-- A reset or clock loss of a part: fabric memory does not survive it (R334). -/
def State.onReset (s : State) (d : Dev) (f : Blk → Blk) : State := ({ s with b := f s.b }).loseHbm d

/-! ## Meanings -/

/-- POWER_ON (R7, R507, R511). -/
def execPowerOn (d : Dev) (s : State) : Res := .next (s.onReset d (fun b => b.powerUp d))

/-- PERST_N_ASSERT (R7, R334, R481, R511). -/
def execPerstAssert (d : Dev) (s : State) : Res := .next (s.onReset d (fun b => b.perstDown d))

/-- PERST_N_RELEASE (R508, R509). -/
def execPerstRelease (d : Dev) (s : State) : Res := s.on (fun b => b.perstUp d)

/-- PCIE_LINK_RESET (R440). -/
def execPcieLinkReset (d : Dev) (linkUp : Bool) (s : State) : Res := s.on (fun b => if b.clocked d then b.linkReset d linkUp else b)

/-- CLOCK_LOSS (R334, R479). -/
def execClockLoss (d : Dev) (c : ClockCause) (s : State) : Res :=
  if hasCause c then .next (s.onReset d (fun b => b.clockLost d c)) else .fault .noSuchUnit

/-- REFCLK_RETURN (R480, R481, R513). -/
def execRefclkReturn (d : Dev) (s : State) : Res := s.on (fun b => b.refclkBack d)

/-- UNDERVOLTAGE_RESET (R492, R495). -/
def execUndervoltageReset (vin : Nat) (s : State) : Res :=
  .next (if vin < 1900 then s.onReset .sw (fun b => b.railReset .sw) else s)

/-- UNDERVOLT_RESET_END (R495). -/
def execUndervoltResetEnd (railsHeld : Bool) (s : State) : Res := s.on (fun b => b.railsBack .sw railsHeld)

/-- RAIL_FAULT (R496). -/
def execRailFault (s : State) : Res := s.on (fun b => b.railReset .ep)

/-- RAIL_RESET_END (R496). -/
def execRailResetEnd (s : State) : Res := s.on (fun b => b.railsBack .ep true)

/-- BOOT_ROM_VERIFY (R385, R510). -/
def execBootRomVerify (d : Dev) (valid : Bool) (imageDigest : Digest) (s : State) : Res :=
  s.on (fun b => if b.inRun d then b.romVerified d valid imageDigest else b)

/-- FIRMWARE_START (R431, R508, R509). -/
def execFirmwareStart (d : Dev) (failed : List Nat) (s : State) : Res := s.on (fun b => if b.inRun d then b.fwStarts d failed else b)

/-- IDENT_DERIVED (R382, R383, R509, R513). -/
def execIdentDerived (d : Dev) (r : IdentResult) (s : State) : Res := s.on (fun b => if b.inRun d then b.identDone d r else b)

/-- SWITCH_START_COMPLETE (R388, R508). -/
def execSwitchStartComplete (ownerValid : Bool) (s : State) : Res := s.on (fun b => if b.inRun .sw then b.swStartDone ownerValid else b)

/-- UCIE_TRAINED (R509, R523). -/
def execUcieTrained (s : State) : Res := s.on (fun b => if b.inRun .ep then b.ucieUp else b)

/-- UCIE_RETRAIN (R523). -/
def execUcieRetrain (m : Nat) (s : State) : Res := s.onIf (hasModule m) (fun b => if b.inRun .ep then b.ucieOut m else b)

/-- UCIE_MODULE_RETRAINED (R523). -/
def execUcieModuleRetrained (m : Nat) (s : State) : Res := s.onIf (hasModule m) (fun b => if b.inRun .ep then b.ucieBack m else b)

/-- SMBUS_BLOCK_READ (R518). -/
def execSmbusBlockRead (d : Dev) (cmd : Nat) (s : State) : Res := s.on (fun b => b.smbus d cmd)

end Sys2Proof.Machine
end

