-- ==== Sys2Proof/Machine/Spdm.lean ====
section
/-! DEFINITION. SPDM over DOE: discovery, the requests a part answers, measurements, sessions and their end (R379, R382-R387, R390-R393,
R510), and the JTAG lock. Error codes are those of SPDM 1.2 (log 94). -/

namespace Sys2Proof.Machine

open Sys2Proof

namespace Blk

def spdm (b : Blk) (d : Dev) : Spdm := (b.core d).spdm

def modSpdm (b : Blk) (d : Dev) (f : Spdm → Spdm) : Blk := b.modCore d (fun c => { c with spdm := f c.spdm })

def doe (b : Blk) (d : Dev) (m : Doe) : Blk := b.emit (.doe d m)

def spdmErr (b : Blk) (d : Dev) (code : Nat) : Blk := b.doe d (.error code)

/-- An SPDM request answered (R383, R390, R510): Unspecified in the recovery state and after a failed derivation, ResponseNotReady until the
identity is ready, when the request is kept for RESPOND_IF_READY. -/
def spdmServe (b : Blk) (d : Dev) (keep : Option Instr) (f : Blk → Blk) : Blk :=
  if !b.clocked d then b
  else if b.recovery d || b.flag d offSecState 2 then b.spdmErr d 5
  else if !b.flag d offSecState 3 then
    (match keep with
      | some i => b.modSpdm d (fun x => { x with deferred := some i })
      | none => b).spdmErr d 0x42
  else f b

/-- A request that needs negotiated algorithms. -/
def withAlgs (b : Blk) (d : Dev) (f : Blk → Blk) : Blk := if (b.spdm d).algs then f b else b.spdmErr d 4

/-! ## Sessions (R393) -/

/-- SESSIONS brought in line (R381). -/
def refreshSessions (b : Blk) (d : Dev) : Blk :=
  b.setFld d offSecState 39 32 ((b.spdm d).sessions.filter (fun x => x.open_)).length

def session (b : Blk) (d : Dev) (id : Nat) : Option Session := (b.spdm d).sessions.find? (fun x => x.id == id)

def modSession (b : Blk) (d : Dev) (id : Nat) (f : Session → Session) : Blk :=
  (b.modSpdm d (fun x => { x with sessions := mapFirst (fun y => y.id == id) f x.sessions })).refreshSessions d

def dropSession (b : Blk) (d : Dev) (id : Nat) : Blk :=
  (b.modSpdm d (fun x => { x with sessions := x.sessions.filter (fun y => !(y.id == id)) })).refreshSessions d

/-- A message inside a session: it restarts the 120 s. -/
def inSession (b : Blk) (d : Dev) (id : Nat) (f : Blk → Session → Blk) : Blk :=
  match b.session d id with
  | none => b.spdmErr d 2
  | some x => f (b.modSession d id (fun y => { y with lastMsg := b.now d })) x

/-- A message inside a session that is open. -/
def inOpen (b : Blk) (d : Dev) (id : Nat) (f : Blk → Session → Blk) : Blk :=
  b.inSession d id (fun b x => if x.open_ then f b x else b.spdmErr d 4)

/-- A request that may come inside a session or outside one. -/
def inAny (b : Blk) (d : Dev) (sess : Option Nat) (f : Blk → Blk) : Blk :=
  match sess with
  | none => f b
  | some id => b.inOpen d id (fun b _ => f b)

/-! ## Measurements (R384-R387) -/

/-- Block 3 (R386). -/
def measState (b : Blk) (d : Dev) : List Byte :=
  let o := match d with
    | .sw => b.sw.lath.owner
    | .ep => none
  let sv := leBytes 4 (Config.fwSvn (b.core d).fwDigest)
  let rec_ := leBytes 1 (b2n (b.flag d offSecState 5))
  match o with
  | some r => sv ++ leBytes 4 r.serial ++ leBytes 4 r.minSvn ++ leBytes 1 1 ++ rec_ ++ zeros 2 ++ digestBytes r.keyDigest
  | none => sv ++ zeros 9 ++ rec_ ++ zeros 66

/-- A measurement block; none where the part has no such index. -/
def measBlock (b : Blk) (d : Dev) (i : Nat) : Option (List Byte) :=
  match d, i with
  | _, 1 => some (digestBytes (Config.romDigest (b.fld d offId 47 32)))
  | _, 2 => some (digestBytes (b.core d).fwReg)
  | _, 3 => some (b.measState d)
  | .sw, 4 => some (digestBytes b.sw.lath.reg)
  | .sw, 5 => some (leBytes 8 b.sw.lath.first ++ digestBytes b.sw.lath.baseVal)
  | _, 6 => some (leBytes 1 (b.fld d offSecState 0 0) ++ leBytes 1 (b.fld d offSecState 31 24) ++ leBytes 1 (b.fld d offSecState 18 16) ++ zeros 13)
  | _, _ => none

/-- The DMTF value type of a block (R384). -/
def measType (i : Nat) : Nat :=
  match i with
  | 1 => 0
  | 2 => 1
  | 4 => 3
  | _ => 0x83

/-- A block as it is reported: index, value type, value. -/
def measReport (b : Blk) (d : Dev) (i : Nat) : Option (Nat × Nat × List Byte) := (b.measBlock d i).map (fun x => (i, measType i, x))

/-- Every block of a part, in order. -/
def measAll (b : Blk) (d : Dev) : List (Nat × Nat × List Byte) := (upto 7).filterMap (b.measReport d)

def measCount (b : Blk) (d : Dev) : Nat := (b.measAll d).length

/-! ## Responses (R391-R393) -/

/-- Version 1.2 alone. -/
def answerVersion (b : Blk) (d : Dev) : Blk := (b.modSpdm d (fun x => { x with algs := false })).doe d (.version 0x12)

/-- The capabilities of R392 and no other. -/
def spdmCaps : List SpdmCap := [.cert, .chal, .meas, .encrypt, .mac, .mutAuth, .keyEx, .hbeat, .keyUpd, .encap]

def answerCapabilities (b : Blk) (d : Dev) : Blk := b.doe d (.capabilities 17 spdmCaps)

/-- The algorithms selected, or ERROR InvalidRequest where one is not offered. -/
def answerAlgorithms (b : Blk) (d : Dev) (o : AlgOffer) : Blk :=
  if o.baseAsym && o.reqAsym && o.hash && o.measHash && o.dhe && o.aead && o.keySched then
    (b.modSpdm d (fun x => { x with algs := true })).doe d .algorithms
  else b.spdmErr d 1

def answerDigests (b : Blk) (d : Dev) (sess : Option Nat) : Blk :=
  b.withAlgs d (fun b => b.inAny d sess (fun b => b.doe d (.digests (b.core d).certOk)))

def answerCertificate (b : Blk) (d : Dev) (slot : Nat) (sess : Option Nat) : Blk :=
  b.withAlgs d (fun b => b.inAny d sess (fun b => if slot = 0 ∧ (b.core d).certOk = true then b.doe d (.certificate true) else b.spdmErr d 1))

def answerChallenge (b : Blk) (d : Dev) (slot nonce : Nat) (sess : Option Nat) : Blk :=
  b.withAlgs d (fun b => b.inAny d sess (fun b =>
    if slot = 0 ∧ (b.core d).certOk = true then b.doe d (.challengeAuth nonce) else b.spdmErr d 1))

/-- Index 0x00 answers the count, 0xFF every block. -/
def answerMeasurements (b : Blk) (d : Dev) (index : Nat) (signed : Bool) (sess : Option Nat) : Blk :=
  b.withAlgs d (fun b => b.inAny d sess (fun b =>
    if signed && !(b.core d).certOk then b.spdmErr d 1
    else if index = 0 then b.doe d (.measurements (b.measCount d) [] signed)
    else if index = 0xFF then b.doe d (.measurements (b.measCount d) (b.measAll d) signed)
    else match b.measReport d index with
      | some x => b.doe d (.measurements 1 [x] signed)
      | none => b.spdmErr d 1))

/-- A session begins, mutual authentication to come; not a ninth one. -/
def answerKeyExchange (b : Blk) (d : Dev) : Blk :=
  b.withAlgs d (fun b =>
    if (b.core d).certOk = false then b.spdmErr d 1
    else if 8 ≤ (b.spdm d).sessions.length then b.spdmErr d 0xA
    else
      let n := (b.spdm d).nextId
      let t := b.now d
      let b := b.modSpdm d (fun x => { x with
        sessions := x.sessions ++ [{ id := n, open_ := false, agent := none, lastMsg := t }], nextId := n + 1 })
      b.doe d (.keyExchangeRsp n true 60))

/-- The session opens once its requester has been authenticated; it ends where it is not. -/
def answerFinish (b : Blk) (d : Dev) (id : Nat) (verified : Bool) : Blk :=
  b.inSession d id (fun b x =>
    if x.open_ then b.spdmErr d 4
    else if verified && x.agent.isSome then (b.modSession d id (fun y => { y with open_ := true })).doe d (.finishRsp id)
    else (b.dropSession d id).spdmErr d 6)

def answerGetEncap (b : Blk) (d : Dev) (id : Nat) : Blk :=
  b.inSession d id (fun b x => if x.open_ || x.agent.isSome then b.spdmErr d 4 else b.doe d (.encapRequest id))

/-- The requester's certificate, or none that holds. -/
def answerDeliver (b : Blk) (d : Dev) (id : Nat) (cert : Option Digest) : Blk :=
  b.inSession d id (fun b x =>
    if x.open_ then b.spdmErr d 4 else (b.modSession d id (fun y => { y with agent := cert })).doe d (.encapAck id))

def answerHeartbeat (b : Blk) (d : Dev) (id : Nat) : Blk := b.inOpen d id (fun b _ => b.doe d (.heartbeatAck id))

def answerKeyUpdate (b : Blk) (d : Dev) (id : Nat) : Blk := b.inOpen d id (fun b _ => b.doe d (.keyUpdateAck id))

def answerEnd (b : Blk) (d : Dev) (id : Nat) : Blk := b.inOpen d id (fun b _ => (b.dropSession d id).doe d (.endSessionAck id))

/-- The requests of R391, other than VENDOR_DEFINED_REQUEST. -/
def spdmCodes : List Nat := [0x84, 0xE1, 0xE3, 0x81, 0x82, 0x83, 0xE0, 0xE4, 0xE5, 0xEA, 0xEB, 0xE8, 0xE9, 0xEC, 0xFE, 0xFF]

def answerUnsupported (b : Blk) (d : Dev) (code : Nat) : Blk := if spdmCodes.contains code then b else b.spdmErr d 7

/-- The answer of a request that was kept; code 0xFE stands for a VENDOR_DEFINED_REQUEST outside a session. -/
def answerKept (b : Blk) (i : Instr) : Blk :=
  match i with
  | .negotiateAlgorithms d o => b.answerAlgorithms d o
  | .getDigests d sess => b.answerDigests d sess
  | .getCertificate d slot sess => b.answerCertificate d slot sess
  | .challenge d slot nonce sess => b.answerChallenge d slot nonce sess
  | .getMeasurements d index signed sess => b.answerMeasurements d index signed sess
  | .keyExchange d => b.answerKeyExchange d
  | .finish d id v => b.answerFinish d id v
  | .getEncapsulatedRequest d id => b.answerGetEncap d id
  | .deliverEncapsulatedResponse d id c => b.answerDeliver d id c
  | .heartbeat d id => b.answerHeartbeat d id
  | .keyUpdate d id => b.answerKeyUpdate d id
  | .endSession d id => b.answerEnd d id
  | .spdmUnsupported d code => if code = 0xFE then b.spdmErr d 4 else b.answerUnsupported d code
  | _ => b

/-- RESPOND_IF_READY: the kept request answered. -/
def answerDeferred (b : Blk) (d : Dev) : Blk :=
  match (b.spdm d).deferred with
  | none => b.spdmErr d 4
  | some i => (b.modSpdm d (fun x => { x with deferred := none })).answerKept i

/-- 120 s without a message end a session. -/
def sessionLate (b : Blk) (d : Dev) (id : Nat) : Blk :=
  match b.session d id with
  | some x => if b.clocked d && decide (x.lastMsg + 120000000000 ≤ b.now d) then b.dropSession d id else b
  | none => b

/-- DOE Discovery (R390): the data object type of an index and the next index; no such index reads Vendor ID 0xFFFF. -/
def discover (b : Blk) (d : Dev) (index : Nat) : Blk :=
  if !b.clocked d then b
  else if index < 3 then b.doe d (.discovery 1 index (if index = 2 then 0 else index + 1))
  else
    let (r, b) := b.fresh
    b.doe d (.discovery 0xFFFF (Config.freeNat r % 256) 0)

/-- A JTAG instruction (R379): a locked part takes all but IDCODE as BYPASS. -/
def jtag (b : Blk) (d : Dev) (isIdcode isBypass : Bool) (ir : Nat) : Blk :=
  b.emit (.jtag d (if isIdcode then .idcode else if isBypass || b.lockedPart d then .bypass else .other ir))

end Blk

/-! ## Meanings -/

/-- GET_VERSION (R391). -/
def execGetVersion (d : Dev) (s : State) : Res := s.on (fun b => if b.clocked d then b.answerVersion d else b)

/-- GET_CAPABILITIES (R391, R392). -/
def execGetCapabilities (d : Dev) (s : State) : Res := s.on (fun b => if b.clocked d then b.answerCapabilities d else b)

/-- NEGOTIATE_ALGORITHMS (R392). -/
def execNegotiateAlgorithms (d : Dev) (o : AlgOffer) (s : State) : Res :=
  s.on (fun b => b.spdmServe d (some (.negotiateAlgorithms d o)) (fun b => b.answerAlgorithms d o))

/-- GET_DIGESTS (R382, R391). -/
def execGetDigests (d : Dev) (sess : Option Nat) (s : State) : Res :=
  s.on (fun b => b.spdmServe d (some (.getDigests d sess)) (fun b => b.answerDigests d sess))

/-- GET_CERTIFICATE (R382, R391). -/
def execGetCertificate (d : Dev) (slot : Nat) (sess : Option Nat) (s : State) : Res :=
  s.on (fun b => b.spdmServe d (some (.getCertificate d slot sess)) (fun b => b.answerCertificate d slot sess))

/-- CHALLENGE (R391). -/
def execChallenge (d : Dev) (slot nonce : Nat) (sess : Option Nat) (s : State) : Res :=
  s.on (fun b => b.spdmServe d (some (.challenge d slot nonce sess)) (fun b => b.answerChallenge d slot nonce sess))

/-- GET_MEASUREMENTS (R384-R387, R391). -/
def execGetMeasurements (d : Dev) (index : Nat) (signed : Bool) (sess : Option Nat) (s : State) : Res :=
  s.on (fun b => b.spdmServe d (some (.getMeasurements d index signed sess)) (fun b => b.answerMeasurements d index signed sess))

/-- KEY_EXCHANGE (R393). -/
def execKeyExchange (d : Dev) (s : State) : Res := s.on (fun b => b.spdmServe d (some (.keyExchange d)) (fun b => b.answerKeyExchange d))

/-- FINISH (R391, R393). -/
def execFinish (d : Dev) (sess : Nat) (verified : Bool) (s : State) : Res :=
  s.on (fun b => b.spdmServe d (some (.finish d sess verified)) (fun b => b.answerFinish d sess verified))

/-- GET_ENCAPSULATED_REQUEST (R391, R393). -/
def execGetEncapsulatedRequest (d : Dev) (sess : Nat) (s : State) : Res :=
  s.on (fun b => b.spdmServe d (some (.getEncapsulatedRequest d sess)) (fun b => b.answerGetEncap d sess))

/-- DELIVER_ENCAPSULATED_RESPONSE (R391, R393, R396). -/
def execDeliverEncapsulatedResponse (d : Dev) (sess : Nat) (cert : Option Digest) (s : State) : Res :=
  s.on (fun b => b.spdmServe d (some (.deliverEncapsulatedResponse d sess cert)) (fun b => b.answerDeliver d sess cert))

/-- HEARTBEAT (R393). -/
def execHeartbeat (d : Dev) (sess : Nat) (s : State) : Res :=
  s.on (fun b => b.spdmServe d (some (.heartbeat d sess)) (fun b => b.answerHeartbeat d sess))

/-- KEY_UPDATE (R391). -/
def execKeyUpdate (d : Dev) (sess : Nat) (s : State) : Res :=
  s.on (fun b => b.spdmServe d (some (.keyUpdate d sess)) (fun b => b.answerKeyUpdate d sess))

/-- END_SESSION (R393). -/
def execEndSession (d : Dev) (sess : Nat) (s : State) : Res :=
  s.on (fun b => b.spdmServe d (some (.endSession d sess)) (fun b => b.answerEnd d sess))

/-- RESPOND_IF_READY (R391). -/
def execRespondIfReady (d : Dev) (s : State) : Res := s.on (fun b => b.spdmServe d none (fun b => b.answerDeferred d))

/-- SPDM_UNSUPPORTED (R390, R391). -/
def execSpdmUnsupported (d : Dev) (code : Nat) (s : State) : Res :=
  s.on (fun b => b.spdmServe d (some (.spdmUnsupported d code)) (fun b => b.answerUnsupported d code))

/-- DOE_DISCOVERY (R390). -/
def execDoeDiscovery (d : Dev) (index : Nat) (s : State) : Res := s.on (fun b => b.discover d index)

/-- SESSION_TIMEOUT (R393). -/
def execSessionTimeout (d : Dev) (sess : Nat) (s : State) : Res := s.on (fun b => b.sessionLate d sess)

/-- JTAG_INSTRUCTION (R379). -/
def execJtagInstruction (d : Dev) (isIdcode isBypass : Bool) (ir : Nat) (s : State) : Res := s.on (fun b => b.jtag d isIdcode isBypass ir)

end Sys2Proof.Machine
end

