-- ==== Sys2Proof/Machine/KeyCommands.lean ====
section
/-! DEFINITION. Genard commands of a session: keys, status, telemetry of an owner, the owner record, the lath log; flips, retirement and
the flush of an end point's entry (R88, R100, R323, R327, R365, R375, R378-R380, R387-R389, R394-R401). -/

namespace Sys2Proof.Machine

open Sys2Proof

namespace Blk

/-! ## Commands inside a session (R394, R395) -/

/-- An answer: RESULT, data, and the block after the command. -/
abbrev Answer := Nat × List Byte × Blk

/-- A refusal changes nothing. -/
def refuse (b : Blk) (result : Nat) : Answer := (result, [], b)

def accept (b : Blk) : Answer := (0, [], b)

/-- CMD of a request payload (R394). -/
def reqCmd (q : List Byte) : Nat := leAt q 0 1

def reqPart (q : List Byte) : Nat := leAt q 2 2 % 4096

/-- The arguments, from byte 8. -/
def reqArgs (q : List Byte) : List Byte := q.drop 8

/-- Whether a payload has n argument bytes and its head's reserved fields are 0. -/
def reqOk (q : List Byte) (n : Nat) : Bool := q.length == 8 + n && leAt q 1 1 == 0 && decide (leAt q 2 2 < 4096) && leAt q 4 4 == 0

/-- A Genard command: outside an open session an error, otherwise answered with its CMD, RESULT, PART_ID and data. -/
def genard (b : Blk) (d : Dev) (sess : Nat) (q : List Byte) (f : Blk → Session → Answer) : Blk :=
  b.spdmServe d none (fun b => b.inOpen d sess (fun b x =>
    let r := f b x
    r.2.2.doe d (.genard (reqCmd q) r.1 (reqPart q) r.2.1)))

/-- A command of one row: a payload with another CMD is no such command (log 100). -/
def genardRow (b : Blk) (d : Dev) (cmd : Nat) (h : GenardHead) (f : Blk → Session → Answer) : Blk :=
  if reqCmd h.req = cmd then b.genard d h.sess h.req f else b

/-- Whether the requester is another than the bound agent (R396). -/
def notAgent (e : KeyEnt) (x : Session) : Bool := e.agent.isSome && decide (e.agent ≠ x.agent)

/-- Whether the requester is not the bound agent. -/
def notOwner (e : KeyEnt) (x : Session) : Bool := e.agent.isNone || decide (e.agent ≠ x.agent)

/-- Whether a partial re-lath of a partition runs (R365). -/
def relathing (b : Blk) (pid : Nat) : Bool :=
  match b.sw.lath.job with
  | some j => j.partial_ && j.target == pid
  | none => false

/-- End-point entries in use (R397). -/
def epEntries (b : Blk) : Nat := (b.epc.keys.filter (fun e => e.2.used)).length

/-- The checks before STATE: UNSUPPORTED, MALFORMED, NO_PARTITION, NOT_BOUND, RELATH (R395); then the command on the partition's entry. -/
def keyCommand (b : Blk) (d : Dev) (here ok relath : Bool) (q : List Byte) (x : Session) (f : Nat → KeyEnt → Answer) : Answer :=
  let pid := reqPart q
  if !here then b.refuse 9
  else if !ok then b.refuse 6
  else match b.keyNo d pid with
    | none => b.refuse 3
    | some n =>
      let e := b.keyEnt d n
      if notAgent e x then b.refuse 2
      else if relath && d == .sw && b.relathing pid then b.refuse 4
      else f n e

/-- As `keyCommand`, for what only the bound agent reads at the switch. -/
def ownerCommand (b : Blk) (d : Dev) (ok : Bool) (q : List Byte) (x : Session) (out : Nat → Bool) (f : Nat → Answer) : Answer :=
  if d == .ep then b.refuse 9
  else if !ok then b.refuse 6
  else match b.partIndex (reqPart q) with
    | none => b.refuse 3
    | some i => if out i then b.refuse 3 else if notOwner (b.keyEnt .sw i) x then b.refuse 2 else f i

/-! ## Slots (R323, R397) -/

def setAgent (e : KeyEnt) (x : Session) : KeyEnt := { e with agent := if e.agent.isSome then e.agent else x.agent }

/-- INSTALL: the current slot where it is empty, else the other slot. -/
def doInstall (b : Blk) (d : Dev) (pid n : Nat) (e : KeyEnt) (x : Session) (masked : Bool) (k : KeyVal) : Answer :=
  if d == .ep && !e.used && decide (64 ≤ b.epEntries) then b.refuse 7
  else if e.flipAt.isSome || (e.cur.isSome && !(e.other == .empty)) then b.refuse 1
  else
    let e := setAgent { e with used := true } x
    let e := if e.cur.isNone then { e with cur := some k } else { e with other := .new, otherKey := some k }
    let fresh := (b.keyEnt d n).cur.isNone
    let b := b.putKey d n e
    match d with
    | .sw => b.accept
    | .ep =>
      let lock := fun b : Blk => (b.setFlag .ep offSecState 0 true).modEp (fun e => { e with lockParts := addNew e.lockParts pid })
      let b := (b.when_ masked lock).refreshEpSec
      (b.when_ fresh (fun b => b.collFlush pid)).accept

/-- MAKE_CURRENT: a flip scheduled for AT, 1 ms to 10 s from now. -/
def doMakeCurrent (b : Blk) (d : Dev) (n : Nat) (e : KeyEnt) (at_ : Nat) : Answer :=
  let ahead := (at_ % 2 ^ 64 + 2 ^ 64 - b.timeNs d) % 2 ^ 64
  if e.flipAt.isSome || !(e.other == .new) || e.holdoff.isSome || (d == .sw && b.sweepActive n) then b.refuse 1
  else if ahead < 1000000 ∨ 10000000000 < ahead then b.refuse 5
  else (b.putKey d n { e with flipAt := some (at_ % 2 ^ 64) }).accept

/-- AT is reached: the slots change places. -/
def flip (b : Blk) (d : Dev) (pid : Nat) : Blk :=
  match b.keyNo d pid with
  | none => b
  | some n =>
    let e := b.keyEnt d n
    match e.flipAt with
    | none => b
    | some t =>
      if (b.timeNs d + 2 ^ 64 - t) % 2 ^ 64 < 2 ^ 63 then
        let b := b.putKey d n { e with
          g := 1 - e.g % 2, cur := e.otherKey, other := .previous, otherKey := e.cur, flipAt := none, lastOld := e.lastCur, lastCur := 0 }
        match d with
        | .sw => b.sweepStart n
        | .ep => b
      else b

/-- The other slot begins to retire; at the end point the far-cache lines of its generation go (R100). -/
def beginRetire (b : Blk) (d : Dev) (pid n : Nat) (e : KeyEnt) : Blk :=
  let b := b.putKey d n { e with other := .retiring }
  match d with
  | .sw => b
  | .ep =>
    b.fcDropGen (fun _ _ p g => p == pid && g != e.g)

def doRetire (b : Blk) (d : Dev) (pid n : Nat) (e : KeyEnt) : Answer :=
  if e.flipAt.isSome || !(e.other == .previous) || (d == .sw && (b.sweepActive n || b.oldLines n != 0)) then b.refuse 1
  else (b.beginRetire d pid n e).accept

/-- Unforced exception entries of a partition. -/
def unforced (b : Blk) (i : Nat) : List Nat := (upto 64).filter (fun k => b.ueValid k && !b.ueForced k && b.uePart k == i)

def doRetireForce (b : Blk) (pid n : Nat) (e : KeyEnt) : Answer :=
  if e.flipAt.isSome || !(e.other == .previous) || b.sweepActive n || b.oldLines n != (b.unforced n).length then b.refuse 1
  else
    let b := b.forEach (b.unforced n) (fun b k => b.setFlag .sw (offUe k) 62 true)
    ((b.setFld .sw (offFmemOld n) 33 0 0).beginRetire .sw pid n e).accept

/-- Whether a request accepted under the generation that retires remains to be carried out (R327): a topcoat held for its SEQ, or an
operation the accelerator has not answered. -/
def oldHeld (b : Blk) (d : Dev) (pid : Nat) (e : KeyEnt) : Bool :=
  let old := fun p : Packet => Packet.part p == pid && Packet.keyGen p != e.g
  (b.home d).held.any (fun t => old t.pkt)
    || (b.home d).pend.any (fun x => !x.isLocal && x.own.isNone && old x.pkt && (match x.hop with | .done _ _ => false | _ => true))

/-- A RETIRING slot becomes EMPTY: its key erased, HOLDOFF set. -/
def slotEmptied (b : Blk) (d : Dev) (pid : Nat) : Blk :=
  match b.keyNo d pid with
  | none => b
  | some n =>
    let e := b.keyEnt d n
    if e.other == .retiring && !b.oldHeld d pid e && decide (e.lastOld + 600000 ≤ b.now d) then
      let b := b.putKey d n { e with other := .empty, otherKey := none, holdoff := some (b.now d) }
      match d with
      | .sw => b.tryUnlock
      | .ep => b.refreshEpSec
    else b

/-- HOLDOFF clears 800 µs after retirement. -/
def holdoffOver (b : Blk) (d : Dev) (pid : Nat) : Blk :=
  match b.keyNo d pid with
  | none => b
  | some n =>
    let e := b.keyEnt d n
    match e.holdoff with
    | some t => if t + 800000 ≤ b.now d then b.putKey d n { e with holdoff := none } else b
    | none => b

/-- An end-point entry freed (R397): slots, binding and far-cache lines go. -/
def freeEntry (b : Blk) (pid : Nat) : Blk :=
  ((b.putKey .ep pid KeyEnt.empty).fcDrop (fun _ _ p => p == pid)).refreshEpSec

/-! ## Reports (R375, R378, R387, R398) -/

def keyIdOf (k : Option KeyVal) : Nat :=
  match k with
  | some v => v.id
  | none => 0

/-- Contexts of a partition that are not UNUSED. -/
def partContexts (b : Blk) (pid : Nat) : List Nat := (upto 1024).filter (fun n => b.ctxPart n == pid && b.ctxState n != 0)

def statusData (b : Blk) (d : Dev) (pid n : Nat) (e : KeyEnt) : List Byte :=
  let two := match d with
    | .sw => leBytes 8 (b.reg .sw (offFmemSweep n)).toNat ++ leBytes 8 (b.reg .sw (offFmemOld n)).toNat
    | .ep => zeros 16
  let ctxs := match d with
    | .sw => []
    | .ep => b.partContexts pid
  leBytes 8 e.word ++ two ++ leBytes 8 (e.flipAt.getD 0) ++ leBytes 8 (keyIdOf e.cur) ++ leBytes 8 (keyIdOf e.otherKey)
    ++ (match e.agent with
        | some a => digestBytes a
        | none => zeros 64)
    ++ leBytes 2 ctxs.length ++ zeros 6 ++ ctxs.flatMap (fun c => leBytes 2 c)

/-- The 48 counters of a partition. -/
def counterData (b : Blk) (i : Nat) : List Byte := b.getBytes .sw (offPartCnt i 0 0) 384

/-- A slot's registers, CTL reading 0, and its lateness records. -/
def slotData (b : Blk) (n : Nat) : List Byte :=
  b.getBytes .sw (offColl n 0) 16 ++ zeros 8 ++ b.getBytes .sw (offColl n 0x18) 40 ++ b.getBytes .sw (offLate n 0) 2304

def slotOutside (b : Blk) (slot i : Nat) : Bool :=
  !(decide (b.partFirstSlot i ≤ slot) && decide (slot < b.partFirstSlot i + b.partNslots i))

/-- Whether a schedule-event record is one a partition's owner is given. -/
def eventFor (b : Blk) (i k : Nat) : Bool :=
  let q := b.reg .sw (offSched + 0x20 * k + 8)
  let t := getF q 7 0
  let a := getF q 15 8
  if t ≤ 5 then true else if t = 8 then bitOf (b.partEngines i) a else bitOf (b.partPorts i) a

/-- Records of the ring, oldest first. -/
def eventData (b : Blk) (i : Nat) : List Byte :=
  let wr := b.fld .sw offSchedPtr 31 0
  let n := min wr 64
  ((upto n).map (fun j => (wr - n + j) % 64)).flatMap (fun k => if b.eventFor i k then b.getBytes .sw (offSched + 0x20 * k) 32 else [])

def logBytes (e : LathLogEnt) : List Byte :=
  leBytes 8 e.imageId ++ leBytes 8 e.baseId ++ leBytes 1 e.kind ++ zeros 3 ++ leBytes 4 e.svn ++ leBytes 8 e.time ++ digestBytes e.d

/-- Up to 128 entries of the lath log from a number on. -/
def logData (b : Blk) (first : Nat) : List Byte := ((b.sw.lath.log.drop (first - b.sw.lath.first)).take 128).flatMap logBytes

/-! ## The owner record (R388, R389) -/

/-- SET_OWNER: argument bytes 0-511 MODULUS, 512-515 EXPONENT, 516-519 MIN_SVN, 520-523 SERIAL, 524-1035 AUTH. -/
def doSetOwner (b : Blk) (args : List Byte) : Answer :=
  let modulus := slice args 0 512
  let none_ := modulus.all (fun x => x == 0#8)
  let o : Owner := { keyDigest := Config.sha512 (slice args 0 516), modulus := modulus, minSvn := leAt args 516 4, serial := leAt args 520 4 }
  if args.length ≠ 1036 ∨ (none_ = false ∧ leAt args 512 4 ≠ 65537) then b.refuse 6
  else
    let ok := match b.sw.lath.owner with
      | none => true
      | some c => Config.pssVerify c.modulus (slice args 0 524 ++ digestBytes (b.swc.idDigest.getD 0)) (slice args 524 512)
          && decide (c.serial < o.serial) && decide (c.minSvn ≤ o.minSvn)
    if !ok then b.refuse 8
    else
      let new := if none_ then none else some o
      let b := (b.modLath (fun l => { l with owner := new, flashOwner := new })).setFlag .sw offSecState 4 new.isSome
      (b.ring .sw 9).accept

/-! ## The commands, by CMD (R394, R395) -/

/-- INSTALL's arguments (R394): 0 FLAGS, 8-15 KEY_ID, 16-79 KEY; MASKED at the end point only, KEY zero there. -/
def genardInstall (b : Blk) (d : Dev) (q : List Byte) (x : Session) : Answer :=
  let a := reqArgs q
  let flags := leAt a 0 8
  let key := leAt a 16 64
  let argsOk := match d with
    | .sw => flags == 0
    | .ep => decide (flags < 2) && key == 0
  b.keyCommand d true (reqOk q 80 && argsOk) true q x (fun n e =>
    b.doInstall d (reqPart q) n e x (flags == 1) { id := leAt a 8 8, key := BitVec.ofNat 512 key, masked := flags == 1 })

def genardMakeCurrent (b : Blk) (d : Dev) (q : List Byte) (x : Session) : Answer :=
  b.keyCommand d true (reqOk q 8) true q x (fun n e => b.doMakeCurrent d n e (leAt (reqArgs q) 0 8))

def genardRetire (b : Blk) (d : Dev) (q : List Byte) (x : Session) : Answer :=
  b.keyCommand d true (reqOk q 0) true q x (fun n e => b.doRetire d (reqPart q) n e)

def genardRetireForce (b : Blk) (d : Dev) (q : List Byte) (x : Session) : Answer :=
  b.keyCommand d (d == .sw) (reqOk q 0) true q x (fun n e => b.doRetireForce (reqPart q) n e)

def genardClear (b : Blk) (d : Dev) (q : List Byte) (x : Session) : Answer :=
  b.keyCommand d (d == .ep) (reqOk q 0) false q x (fun _ _ => (b.freeEntry (reqPart q)).accept)

def genardPartStatus (b : Blk) (d : Dev) (q : List Byte) (x : Session) : Answer :=
  b.keyCommand d true (reqOk q 0) false q x (fun n e => (0, b.statusData d (reqPart q) n e, b))

def genardReadCounters (b : Blk) (d : Dev) (q : List Byte) (x : Session) : Answer :=
  b.ownerCommand d (reqOk q 0) q x (fun _ => false) (fun i => (0, b.counterData i, b))

def genardReadSlot (b : Blk) (d : Dev) (q : List Byte) (x : Session) : Answer :=
  let slot := leAt (reqArgs q) 0 2
  b.ownerCommand d (reqOk q 2) q x (b.slotOutside slot) (fun _ => (0, b.slotData slot, b))

def genardReadEvents (b : Blk) (d : Dev) (q : List Byte) (x : Session) : Answer :=
  b.ownerCommand d (reqOk q 0) q x (fun _ => false) (fun i => (0, b.eventData i, b))

def genardSetOwner (b : Blk) (d : Dev) (q : List Byte) : Answer :=
  if d == .ep then b.refuse 9 else if !reqOk q 1036 then b.refuse 6 else b.doSetOwner (reqArgs q)

def genardReadLathLog (b : Blk) (d : Dev) (q : List Byte) : Answer :=
  if d == .ep then b.refuse 9 else if !reqOk q 8 then b.refuse 6 else (0, b.logData (leAt (reqArgs q) 0 8), b)

/-- Any command; a reserved CMD is UNSUPPORTED. -/
def genardAny (b : Blk) (d : Dev) (q : List Byte) (x : Session) : Answer :=
  match reqCmd q with
  | 1 => b.genardInstall d q x
  | 2 => b.genardMakeCurrent d q x
  | 3 => b.genardRetire d q x
  | 4 => b.genardRetireForce d q x
  | 5 => b.genardClear d q x
  | 0x10 => b.genardPartStatus d q x
  | 0x11 => b.genardReadCounters d q x
  | 0x12 => b.genardReadSlot d q x
  | 0x13 => b.genardReadEvents d q x
  | 0x20 => b.genardSetOwner d q
  | 0x21 => b.genardReadLathLog d q
  | _ => b.refuse 9

end Blk

/-! ## Meanings -/

/-- INSTALL (R323, R379, R394-R397). -/
def execInstall (d : Dev) (h : GenardHead) (s : State) : Res := s.on (fun b => b.genardRow d 1 h (fun b x => b.genardInstall d h.req x))

/-- MAKE_CURRENT (R88, R323, R394-R399). -/
def execMakeCurrent (d : Dev) (h : GenardHead) (s : State) : Res :=
  s.on (fun b => b.genardRow d 2 h (fun b x => b.genardMakeCurrent d h.req x))

/-- KEY_FLIP (R324, R399). -/
def execKeyFlip (d : Dev) (partId : Nat) (s : State) : Res := s.on (fun b => if b.inRun d then b.flip d (partId % 4096) else b)

/-- RETIRE (R100, R323, R394-R397). -/
def execRetire (d : Dev) (h : GenardHead) (s : State) : Res := s.on (fun b => b.genardRow d 3 h (fun b x => b.genardRetire d h.req x))

/-- RETIRE_FORCE (R323, R326, R394-R396). -/
def execRetireForce (d : Dev) (h : GenardHead) (s : State) : Res :=
  s.on (fun b => b.genardRow d 4 h (fun b x => b.genardRetireForce d h.req x))

/-- KEY_SLOT_EMPTIED (R323, R327, R380, R397). -/
def execKeySlotEmptied (d : Dev) (partId : Nat) (s : State) : Res := s.on (fun b => if b.inRun d then b.slotEmptied d (partId % 4096) else b)

/-- HOLDOFF_CLEAR (R88, R323). -/
def execHoldoffClear (d : Dev) (partId : Nat) (s : State) : Res := s.on (fun b => if b.inRun d then b.holdoffOver d (partId % 4096) else b)

/-- CLEAR (R380, R394-R397). -/
def execClear (d : Dev) (h : GenardHead) (s : State) : Res := s.on (fun b => b.genardRow d 5 h (fun b x => b.genardClear d h.req x))

/-- PART_STATUS (R394-R398). -/
def execPartStatus (d : Dev) (h : GenardHead) (s : State) : Res :=
  s.on (fun b => b.genardRow d 0x10 h (fun b x => b.genardPartStatus d h.req x))

/-- READ_COUNTERS (R304, R305, R394-R396). -/
def execReadCounters (d : Dev) (h : GenardHead) (s : State) : Res :=
  s.on (fun b => b.genardRow d 0x11 h (fun b x => b.genardReadCounters d h.req x))

/-- READ_SLOT (R375, R394-R396). -/
def execReadSlot (d : Dev) (h : GenardHead) (s : State) : Res :=
  s.on (fun b => b.genardRow d 0x12 h (fun b x => b.genardReadSlot d h.req x))

/-- READ_EVENTS (R378, R394-R396). -/
def execReadEvents (d : Dev) (h : GenardHead) (s : State) : Res :=
  s.on (fun b => b.genardRow d 0x13 h (fun b x => b.genardReadEvents d h.req x))

/-- SET_OWNER (R388, R389, R394, R395, R460). -/
def execSetOwner (d : Dev) (h : GenardHead) (s : State) : Res :=
  s.on (fun b => b.genardRow d 0x20 h (fun b _ => b.genardSetOwner d h.req))

/-- READ_LATH_LOG (R387, R394, R395). -/
def execReadLathLog (d : Dev) (h : GenardHead) (s : State) : Res :=
  s.on (fun b => b.genardRow d 0x21 h (fun b _ => b.genardReadLathLog d h.req))

/-- SEC_FLUSH (R380, R397): a host write of EP_SEC_FLUSH with GO set. -/
def execSecFlush (partId : Nat) (s : State) : Res := s.on (fun b => b.hostWrite .ep (fun b => b.freeEntry (partId % 4096)))

/-- VENDOR_DEFINED_REQUEST (R391, R394, R395): inside a session only; what its CMD names is carried out. -/
def execVendorDefinedRequest (d : Dev) (sess : Option Nat) (req : List Byte) (s : State) : Res :=
  s.on (fun b => match sess with
    | none => b.spdmServe d (some (.spdmUnsupported d 0xFE)) (fun b => b.spdmErr d 4)
    | some id => b.genard d id req (fun b x => b.genardAny d req x))

end Sys2Proof.Machine
end

