-- ==== Sys2Proof/Machine/HostRegs.lean ====
section
/-! DEFINITION. Host access to BAR0: what a write of any register does, what a read returns and clears, refused accesses, and the MSI-X
table (R6-R9, R81-R83, R141, R146-R148, R159, R169, R208-R214, R241, R299-R305, R375, R438-R452, R464, R502, R540). -/

namespace Sys2Proof.Machine

open Sys2Proof

namespace Blk

/-! ## Vectors (R464) -/

/-- A pending vector that nothing holds back any more is sent once. -/
def flushVector (b : Blk) (d : Dev) (v : Nat) : Blk :=
  if b.flag d offMsixPba v && !b.vectorMasked d v && b.canSignal d then (b.setFlag d offMsixPba v false).emit (.msix d v) else b

/-- Every pending vector, when the part can signal again. -/
def flushVectors (b : Blk) (d : Dev) : Blk := b.forBelow 64 (fun b v => b.flushVector d v)

/-- The mask bit of a vector cleared. -/
def unmask (b : Blk) (d : Dev) (v : Nat) : Blk := (b.setFlag d (offMsixTable + 16 * v + 8) 32 false).flushVector d v

/-! ## Accesses (R441) -/

/-- Whether an access is 4 or 8 bytes, aligned to its size. -/
def goodAccess (off size : Nat) : Bool := (size == 4 || size == 8) && off % size == 0

/-- Whether an access covers every bit of [hi:lo] of its register. -/
def covers (off size hi lo : Nat) : Bool := size == 8 || (if off % 8 = 0 then decide (hi < 32) else decide (32 ≤ lo))

/-- Whether an access covers a bit of [hi:lo] of its register. -/
def touches (off size hi lo : Nat) : Bool := size == 8 || (if off % 8 = 0 then decide (lo < 32) else decide (32 ≤ hi))

/-- A write of another size or alignment: dropped and counted. -/
def badWrite (b : Blk) (d : Dev) : Blk := b.count d offRefused 31 0 1

/-- A read of another size or alignment. -/
def badRead (b : Blk) (d : Dev) (off : Nat) : Blk := b.emit (.readUnsupported d off)

/-! ## Writes both parts have -/

/-- CTL of a port (R415): CMD_ERR, then ENABLE, then the command. -/
def writePortCtl (b : Blk) (d : Dev) (n v : Nat) : Blk :=
  let o := offPort d n 8
  let b := if bitOf v 4 then b.setFlag d o 4 false else b
  let b := if bitOf v 8 == b.flag d o 8 then b else b.enablePort d n (bitOf v 8)
  match bits v 3 0 with
  | 0 => b
  | 1 => b.cmdRetrain d n
  | 2 => b.cmdRetire d n
  | 3 => b.cmdUnretire d n
  | _ => b.refuseCmd d n

/-- An entry of the MSI-X table written (R464). -/
def writeMsix (b : Blk) (d : Dev) (v off val : Nat) : Blk := (b.writeFields d off val).flushVector d v

/-- The mailbox and the doorbells (R453-R456, R460, R461). -/
def writeMbox (b : Blk) (d : Dev) (off size v : Nat) : Blk :=
  if off < offMboxCtl then b.writeMboxData d ((off - offMboxData) / 8) v
  else if off = offMboxCtl then
    let b := b.writeFields d off v
    if touches off size 0 0 && bitOf v 0 then b.sendMsg d else b
  else if off = offDbMask then b.writeDbMask d v
  else b.writeFields d off v

/-- A pointer field [12:0] of a host queue of 4,096 entries (R159, R303): a value more than 4,096 behind TAIL is refused. -/
def writeHead (b : Blk) (d : Dev) (off v : Nat) : Blk :=
  if 4096 < (b.fld d off 44 32 + 8192 - bits v 12 0) % 8192 then b else b.writeFields d off v

/-! ## The switch -/

/-- A configuration register or leg of a collective slot (R208, R214): taken in FREE; a reserved encoding keeps its field and sets ERR. -/
def writeSlotCfg (b : Blk) (n off size r v : Nat) : Blk :=
  if b.slotState n ≠ 0 then b
  else
    let bad := (fieldsAt .sw r).any (fun f => touches off size f.hi f.lo && !f.allows (bits v f.hi f.lo))
    let b := b.writeFields .sw r v
    if bad then b.slotErr n 2 else b

/-- CTL of a collective slot (R212). -/
def writeSlotCtl (b : Blk) (n v : Nat) : Blk :=
  match bits v 3 0 with
  | 0 => b
  | 1 => b.admitSlot n
  | 2 => (b.cmdClose n).collDrain
  | 3 => (b.cmdRelease n).collDrain
  | _ => b.slotErr n 1

/-- CTL of a partition (R466). -/
def writePartCtl (b : Blk) (i v : Nat) : Blk :=
  let b := if bitOf v 8 then b.setFlag .sw (offPartCtl i) 8 false else b
  match bits v 3 0 with
  | 0 => b
  | 1 => b.cmdPartAbort i
  | 2 => b.cmdPartResume i
  | _ => b.partErr i

/-- SW_PATCH_CTL (R432). -/
def writePatchCtl (b : Blk) (v : Nat) : Blk :=
  let b := if bitOf v 5 then b.setFlag .sw offPatchCtl 5 false else b
  if bitOf v 8 then b.cmdPatch (bits v 4 0) else b

/-- SW_SWATCH_CTL (R299). -/
def writeSwatchCtl (b : Blk) (v : Nat) : Blk := (b.setFlag .sw offSwatchCtl 1 (bitOf v 1)).enableSwatch (bitOf v 0)

/-- SW_SWATCH_RD (R299). -/
def writeSwatchRd (b : Blk) (v : Nat) : Blk := if b.fld .sw offSwatchWr 39 0 < bits v 39 0 then b else b.writeFields .sw offSwatchRd v

/-- A register of the switch outside the mailbox region: `r` is the register, `v` the write as one of the whole register, `off` and `size`
the access. -/
def writeSw (b : Blk) (off size r v : Nat) : Blk :=
  if r = offCtl then
    let b := b.writeFields .sw r v
    if bitOf v 0 then b.cmdAbortAll .sw else b
  else if r = offTimeCtl then b.writeTimeCtl .sw v
  else if r = offPwrCtl then b.writePwrCtl v
  else if r = offPatchCtl then b.writePatchCtl v
  else if r = offCmapCtl then b.writeCmapCtl v
  else if r = offSwatchCtl then b.writeSwatchCtl v
  else if r = offSwatchRd then b.writeSwatchRd v
  else if r = offSamplePtr then b.writeHead .sw r v
  else if r < 0x10000 then
    match inBlocks r offMsixTable 16 64 with
    | some (n, _) => b.writeMsix .sw n r v
    | none => b.writeFields .sw r v
  else if 0x100000 ≤ r ∧ r < 0x1F0000 then
    match inBlocks r 0x100000 0x2000 72 with
    | some (n, 8) => b.writePortCtl .sw n v
    | _ => b.writeFields .sw r v
  else if 0x1F0000 ≤ r ∧ r < 0x200000 then
    match inBlocks r 0x1F0000 8 20 with
    | some (k, _) => if bitOf v 0 then b.usePri .sw k else b
    | none => b
  else if 0x300000 ≤ r ∧ r < 0x310000 then
    let n := (r - 0x300000) / 0x40
    let x := (r - 0x300000) % 0x40
    if x = 0x10 then b.writeSlotCtl n v
    else if x = 0x18 ∨ x = 0x28 ∨ x = 0x30 then b.writeFields .sw r v
    else b.writeSlotCfg n off size r v
  else if 0x600000 ≤ r ∧ r < 0x640000 then
    match inBlocks r 0x600000 0x1000 64 with
    | some (i, 0x40) => b.writePartCtl i v
    | _ => b
  else if 0x2000000 ≤ r ∧ r < 0x2100000 then b.writeSlotCfg ((r - 0x2000000) / 0x400) off size r v
  else b.writeFields .sw r v

/-! ## The end point -/

/-- CMD of a context (R136). ACTIVATE and LOAD wait for what they read from host memory (R440), which their own rows carry. -/
def writeCtxCmd (b : Blk) (n v : Nat) : Blk :=
  match bits v 3 0 with
  | 0 => b
  | 1 => b.activate n none
  | 2 => b.loadCtx n none
  | 3 => b.preemptCtx n 1
  | 4 => b.preemptCtx n 2
  | 5 => b.resumeRetry n
  | 6 => b.resumeSkip n
  | 7 => b.cmdAbort n
  | 8 => b.releaseCtx n
  | _ => b.cmdErr n 1

/-- A register of datagram queue q (R169): a base is kept while VALID is 1, a pointer while more than 1,024 entries would be posted. -/
def writeDgq (b : Blk) (q x r v : Nat) : Blk :=
  if x = 0 then b.writeDgqCfg q v
  else if x = 8 ∨ x = 24 then (if b.dgqValid q then b else b.writeFields .ep r v)
  else if x = 16 ∨ x = 32 then
    if 1024 < (bits v 10 0 + 2048 - b.fld .ep r 42 32) % 2048 then b else b.writeFields .ep r v
  else b.writeFields .ep r v

/-- A register of the end point outside the mailbox region. -/
def writeEp (b : Blk) (off size r v : Nat) : Blk :=
  if r = offCtl then
    let b := b.writeFields .ep r v
    if bitOf v 0 then b.cmdAbortAll .ep else b
  else if r = offPartAbort then (if bitOf v 63 then b.abortPart (bits v 11 0) 1 else b)
  else if r = offTimeCtl then b.writeTimeCtl .ep v
  else if r = offSecFlush then (if bitOf v 63 then b.freeEntry (bits v 11 0) else b)
  else if r = offFqPtr then b.writeHead .ep r v
  else if r = offFqResume then (if bitOf v 0 then b.resumeFaults else b)
  else if r = offCtxTable then (if (upto 1024).all (fun n => b.ctxState n == 0) then b.writeFields .ep r v else b)
  else if r = 0x404000 then (if bitOf v 0 then b.usePri .ep 0 else b)
  else if r < 0x10000 then
    match inBlocks r offMsixTable 16 64 with
    | some (n, _) => b.writeMsix .ep n r v
    | none => b.writeFields .ep r v
  else if 0x100000 ≤ r ∧ r < 0x200000 then
    match inBlocks r 0x100000 0x400 1024 with
    | some (n, 8) => b.writeCtxCmd n v
    | _ => b.writeFields .ep r v
  else if 0x300000 ≤ r ∧ r < 0x310000 then
    let n := (r - 0x300000) / 16
    if r % 16 = 0 then b.writeTallyCfg n v
    else if touches off size 63 32 then b.writeTallyTarget n (bits v 63 32) else b
  else if 0x400000 ≤ r ∧ r < 0x404000 then
    if (r - 0x400000) % 0x1000 = 8 then b.writePortCtl .ep ((r - 0x400000) / 0x1000) v else b.writeFields .ep r v
  else if 0x406000 ≤ r ∧ r < 0x406400 then b.writeDgq ((r - 0x406000) / 0x40) ((r - 0x406000) % 0x40) r v
  else if 0x410000 ≤ r ∧ r < 0x430000 then b.writeNode ((r - 0x410000) / 8) v
  else if 0x500000 ≤ r ∧ r < 0x501000 then
    match inBlocks r 0x500000 8 3 with
    | some (n, _) => b.writeIsland n v
    | none => b
  else if 0x501000 ≤ r ∧ r < 0x501400 then
    let n := (r - 0x501000) / 16
    if r % 16 = 8 then b.writeHwinCtl n v else if b.hwinValid n then b else b.writeFields .ep r v
  else if 0x600000 ≤ r ∧ r < 0xA00000 then
    if (r - 0x600000) % 0x1000 = 0 ∧ touches off size 31 0 = true then b.writeProd ((r - 0x600000) / 0x1000) (bits v 31 0) else b
  else b.writeFields .ep r v

/-! ## A host write -/

/-- A write of BAR0 (R441, R452): judged by size, then by READY outside the mailbox region. -/
def writeBar0 (b : Blk) (d : Dev) (off size val : Nat) : Blk :=
  if !b.clocked d then b
  else if !goodAccess off size then b.badWrite d
  else
    let r := off - off % 8
    let v := b.wholeWrite d off size val
    if 0x10000 ≤ r ∧ r < 0x20000 then b.writeMbox d r size v
    else b.hostWrite d (fun b => match d with
      | .sw => b.writeSw off size r v
      | .ep => b.writeEp off size r v)

/-- Bus Master Enable and MSI-X Enable (R440, R464): vectors that waited go out; without Bus Master Enable a load's fetch ends. -/
def writeConfig (b : Blk) (d : Dev) (w : RegWrite) : Blk :=
  if !b.clocked d then b
  else match w with
    | .bar0 off size val => b.writeBar0 d off size val
    | .busMaster on =>
      let b := b.modCore d (fun c => { c with busMaster := on })
      if on then b.flushVectors d else b.dmaLost d
    | .msixEnable on =>
      let b := b.modCore d (fun c => { c with msixEn := on })
      if on then b.flushVectors d else b

/-! ## A host read -/

/-- Whether a slot lies in the range of a masked partition (R375). -/
def slotHidden (b : Blk) (n : Nat) : Bool := (upto 64).any (fun i => b.partMasked i && !b.slotOutside n i)

/-- SW_COLL_EXP_DATA (R241, R375). -/
def expData (b : Blk) : Nat :=
  let n := b.fld .sw offExpSel 41 32
  let c := b.fld .sw offExpSel 19 0 / 4 * 4
  let shown := b.collExp n && !b.slotHidden n
  let e := fun j : Nat => if shown && decide (c + j < b.nchunks n) then b.expEntry n (c + j) else 0x8000
  (upto 4).foldl (fun a j => a + e j % 65536 * 2 ^ (16 * j)) 0

/-- The record of the swatch ring a quadword of the aperture lies in, where there is one (R299). -/
def ringRecord (b : Blk) (r : Nat) : Option Nat :=
  let x := b.fld .sw offSwatchAper 63 23 * 2 ^ 23 + (r - 0x3800000)
  if x < b.swatchSize * 64 then some (x / 64) else none

/-- A quadword of the swatch aperture: ring bytes from BASE on, 0xFF in every byte of a line that cannot be corrected, 0 beyond the ring
(R299, R330). -/
def swatchData (b : Blk) (r : Nat) (ecc : Ecc) : Nat :=
  match b.ringRecord r with
  | none => 0
  | some k => if b.lineBad ecc (b.ringLine k) then 2 ^ 64 - 1 else leAt (b.sw.swatch.get k []) (r % 64) 8

/-- What the read of a ring line found is counted (R329, R330). -/
def swatchRead (b : Blk) (r : Nat) (ecc : Ecc) : Blk :=
  match b.ringRecord r with
  | none => b
  | some k =>
    let l := b.ringLine k
    if b.lineBad ecc l then b.plainUe l else if ecc.ce.contains l then b.lineCe l else b

/-- Whether BAR0 shows nothing of a register to the host: counters of a masked partition, COUNTS, ASTAT and the lateness records of its
slots (R305, R375). -/
def regHidden (b : Blk) (r : Nat) : Bool :=
  match inBlocks r 0x600000 0x1000 64 with
  | some (i, x) => decide (0x800 ≤ x) && b.partMasked i
  | none =>
    if 0x300000 ≤ r ∧ r < 0x310000 then
      (r % 0x40 == 0x28 || r % 0x40 == 0x30) && b.slotHidden ((r - 0x300000) / 0x40)
    else if 0x2100000 ≤ r ∧ r < 0x2500000 then b.slotHidden ((r - 0x2100000) / 0x1000)
    else false

/-- What a read of a register returns. -/
def readReg (b : Blk) (d : Dev) (r : Nat) (ecc : Ecc) : Nat :=
  let v := (b.reg d r).toNat
  if (fieldsAt d r).isEmpty then 0
  else if r = offTimeNs then b.timeNs d
  else match d with
    | .ep => v
    | .sw =>
      if r = offExpData then b.expData
      else if 0x3800000 ≤ r then b.swatchData r ecc
      else if b.regHidden r then 0
      else if 0x300000 ≤ r ∧ r < 0x310000 ∧ r % 0x40 = 0x18 ∧ b.slotHidden ((r - 0x300000) / 0x40) = true then v % 2 ^ 24
      else v

/-- RC fields of a register that a read covers, cleared. -/
def clearRead (b : Blk) (d : Dev) (off size r : Nat) : Blk :=
  if d == .sw && b.regHidden r then b
  else b.setReg d r ((fieldsAt d r).foldl (fun w f => if f.acc == .rc && covers off size f.hi f.lo then setF w f.hi f.lo 0 else w) (b.reg d r))

/-- A read of BAR0; `ecc` tells of the ring line a read of the swatch aperture touches. -/
def readBar0 (b : Blk) (d : Dev) (off size : Nat) (ecc : Ecc) : Blk :=
  if !b.clocked d then b
  else if !goodAccess off size then b.badRead d off
  else
    let r := off - off % 8
    let x := b.readReg d r ecc
    let b := (b.clearRead d off size r).when_ (r == offTimeNs) (fun b => b.latchFrac d)
    let b := b.when_ (d == .sw && decide (0x3800000 ≤ r)) (fun b => b.swatchRead r ecc)
    b.emit (.readData d off size ((x >>> (8 * (off % 8))) % 2 ^ (8 * size)))

end Blk

/-! ## Meanings -/

/-- WRITE_REGISTER (R6-R9, R440, R441, R452): a field with a row of its own has there what the row says. -/
def execWriteRegister (d : Dev) (w : RegWrite) (s : State) : Res := s.onIf (hasWrite d w) (fun b => b.writeConfig d w)

/-- READ_CLEAR (R6, R441). -/
def execReadClear (d : Dev) (off size : Nat) (ecc : Ecc) (s : State) : Res := s.onIf (hasBar0 d off) (fun b => b.readBar0 d off size ecc)

/-- BAR0_BAD_ACCESS (R441, R450). -/
def execBar0BadAccess (d : Dev) (isWrite : Bool) (off size : Nat) (s : State) : Res :=
  s.onIf (hasBar0 d off) (fun b =>
    if !b.clocked d || Blk.goodAccess off size then b else if isWrite then b.badWrite d else b.badRead d off)

/-- MSIX_UNMASK (R464). -/
def execMsixUnmask (d : Dev) (v : Nat) (s : State) : Res := s.onIf (hasVector v) (fun b => b.hostWrite d (fun b => b.unmask d v))

end Sys2Proof.Machine
end

