-- ==== Sys2Proof/Machine/Dispatch.lean ====
section
/-! DEFINITION. The meaning of each command: one arm for each row of spec/opcode_table.json, in its order. -/

namespace Sys2Proof.Machine

open Sys2Proof

def exec (i : Instr) (s : State) : Host.Outcome State Fault Refusal :=
  match i with
  | .writeRegister d w => Sys2Proof.Machine.execWriteRegister d w s
  | .readClear d off size ecc => Sys2Proof.Machine.execReadClear d off size ecc s
  | .powerOn d => Sys2Proof.Machine.execPowerOn d s
  | .perstAssert d => Sys2Proof.Machine.execPerstAssert d s
  | .perstRelease d => Sys2Proof.Machine.execPerstRelease d s
  | .pcieLinkReset d linkUp => Sys2Proof.Machine.execPcieLinkReset d linkUp s
  | .bar0BadAccess d isWrite off size => Sys2Proof.Machine.execBar0BadAccess d isWrite off size s
  | .msixUnmask d v => Sys2Proof.Machine.execMsixUnmask d v s
  | .dataFlitReceive d port f => Sys2Proof.Machine.execDataFlitReceive d port f s
  | .ctrlFlitReceive d port f => Sys2Proof.Machine.execCtrlFlitReceive d port f s
  | .replayTimerExpiry d port => Sys2Proof.Machine.execReplayTimerExpiry d port s
  | .replayBudgetExpiry d port => Sys2Proof.Machine.execReplayBudgetExpiry d port s
  | .flitSend d port => Sys2Proof.Machine.execFlitSend d port s
  | .uncorrectableCodeword d port wl => Sys2Proof.Machine.execUncorrectableCodeword d port wl s
  | .serWindowEnd d port wl corrected received => Sys2Proof.Machine.execSerWindowEnd d port wl corrected received s
  | .bucketDrain d b => Sys2Proof.Machine.execBucketDrain d b s
  | .wavelengthLoss d port wl => Sys2Proof.Machine.execWavelengthLoss d port wl s
  | .lockLost d port => Sys2Proof.Machine.execLockLost d port s
  | .lightLost d port => Sys2Proof.Machine.execLightLost d port s
  | .subst d port wl marker => Sys2Proof.Machine.execSubst d port wl marker s
  | .substAck d port wl marker => Sys2Proof.Machine.execSubstAck d port wl marker s
  | .substSwitchover d port => Sys2Proof.Machine.execSubstSwitchover d port s
  | .substTimeout d port => Sys2Proof.Machine.execSubstTimeout d port s
  | .paramNode d port wl marker => Sys2Proof.Machine.execParamNode d port wl marker s
  | .paramPort d port wl marker => Sys2Proof.Machine.execParamPort d port wl marker s
  | .rxMap d port wl marker qualified => Sys2Proof.Machine.execRxMap d port wl marker qualified s
  | .linkUp d port => Sys2Proof.Machine.execLinkUp d port s
  | .trainingTimeout d port => Sys2Proof.Machine.execTrainingTimeout d port s
  | .trainingWaitEnd d port => Sys2Proof.Machine.execTrainingWaitEnd d port s
  | .lightDetected d port wl => Sys2Proof.Machine.execLightDetected d port wl s
  | .retrain d port => Sys2Proof.Machine.execRetrain d port s
  | .portRetire d port => Sys2Proof.Machine.execPortRetire d port s
  | .unretire d port => Sys2Proof.Machine.execUnretire d port s
  | .portEnable d port on => Sys2Proof.Machine.execPortEnable d port on s
  | .loopbackTestDone port pass => Sys2Proof.Machine.execLoopbackTestDone port pass s
  | .laserFailover d k pwr => Sys2Proof.Machine.execLaserFailover d k pwr s
  | .laserInputLost d k priPwr redPwr => Sys2Proof.Machine.execLaserInputLost d k priPwr redPwr s
  | .lsupLossPatchTrigger k => Sys2Proof.Machine.execLsupLossPatchTrigger k s
  | .laserLightReturn d k redundant pwr => Sys2Proof.Machine.execLaserLightReturn d k redundant pwr s
  | .usePrimary d k => Sys2Proof.Machine.execUsePrimary d k s
  | .tileInternalError t where_ copies => Sys2Proof.Machine.execTileInternalError t where_ copies s
  | .engineFault e err held => Sys2Proof.Machine.execEngineFault e err held s
  | .patchGo tile => Sys2Proof.Machine.execPatchGo tile s
  | .patchBegin held => Sys2Proof.Machine.execPatchBegin held s
  | .patchMove selfTests => Sys2Proof.Machine.execPatchMove selfTests s
  | .patchEnd => Sys2Proof.Machine.execPatchEnd s
  | .switchIngress port p => Sys2Proof.Machine.execSwitchIngress port p s
  | .spillComplete copy => Sys2Proof.Machine.execSpillComplete copy s
  | .refill q ecc => Sys2Proof.Machine.execRefill q ecc s
  | .sampleEntryWrite => Sys2Proof.Machine.execSampleEntryWrite s
  | .egressArbitrate eq => Sys2Proof.Machine.execEgressArbitrate eq s
  | .calendarSlotStart cal => Sys2Proof.Machine.execCalendarSlotStart cal s
  | .frameFoundBad copy reason => Sys2Proof.Machine.execFrameFoundBad copy reason s
  | .cmapIntervalEnd => Sys2Proof.Machine.execCmapIntervalEnd s
  | .swatchEnable on => Sys2Proof.Machine.execSwatchEnable on s
  | .bar2Write off bytes ecc => Sys2Proof.Machine.execBar2Write off bytes ecc s
  | .bar2Read off len ecc => Sys2Proof.Machine.execBar2Read off len ecc s
  | .sweepStep n ecc => Sys2Proof.Machine.execSweepStep n ecc s
  | .scrubStep line ecc => Sys2Proof.Machine.execScrubStep line ecc s
  | .lathLoad part => Sys2Proof.Machine.execLathLoad part s
  | .lathImageFetched image => Sys2Proof.Machine.execLathImageFetched image s
  | .lathInForce => Sys2Proof.Machine.execLathInForce s
  | .groupClearDone g => Sys2Proof.Machine.execGroupClearDone g s
  | .getVersion d => Sys2Proof.Machine.execGetVersion d s
  | .getCapabilities d => Sys2Proof.Machine.execGetCapabilities d s
  | .negotiateAlgorithms d offer => Sys2Proof.Machine.execNegotiateAlgorithms d offer s
  | .getDigests d sess => Sys2Proof.Machine.execGetDigests d sess s
  | .getCertificate d slot sess => Sys2Proof.Machine.execGetCertificate d slot sess s
  | .challenge d slot nonce sess => Sys2Proof.Machine.execChallenge d slot nonce sess s
  | .getMeasurements d index signed sess => Sys2Proof.Machine.execGetMeasurements d index signed sess s
  | .keyExchange d => Sys2Proof.Machine.execKeyExchange d s
  | .finish d sess verified => Sys2Proof.Machine.execFinish d sess verified s
  | .getEncapsulatedRequest d sess => Sys2Proof.Machine.execGetEncapsulatedRequest d sess s
  | .deliverEncapsulatedResponse d sess cert => Sys2Proof.Machine.execDeliverEncapsulatedResponse d sess cert s
  | .heartbeat d sess => Sys2Proof.Machine.execHeartbeat d sess s
  | .keyUpdate d sess => Sys2Proof.Machine.execKeyUpdate d sess s
  | .endSession d sess => Sys2Proof.Machine.execEndSession d sess s
  | .respondIfReady d => Sys2Proof.Machine.execRespondIfReady d s
  | .spdmUnsupported d code => Sys2Proof.Machine.execSpdmUnsupported d code s
  | .doeDiscovery d index => Sys2Proof.Machine.execDoeDiscovery d index s
  | .sessionTimeout d sess => Sys2Proof.Machine.execSessionTimeout d sess s
  | .install d h => Sys2Proof.Machine.execInstall d h s
  | .makeCurrent d h => Sys2Proof.Machine.execMakeCurrent d h s
  | .keyFlip d partId => Sys2Proof.Machine.execKeyFlip d partId s
  | .retire d h => Sys2Proof.Machine.execRetire d h s
  | .retireForce d h => Sys2Proof.Machine.execRetireForce d h s
  | .keySlotEmptied d partId => Sys2Proof.Machine.execKeySlotEmptied d partId s
  | .holdoffClear d partId => Sys2Proof.Machine.execHoldoffClear d partId s
  | .clear d h => Sys2Proof.Machine.execClear d h s
  | .partStatus d h => Sys2Proof.Machine.execPartStatus d h s
  | .readCounters d h => Sys2Proof.Machine.execReadCounters d h s
  | .readSlot d h => Sys2Proof.Machine.execReadSlot d h s
  | .readEvents d h => Sys2Proof.Machine.execReadEvents d h s
  | .setOwner d h => Sys2Proof.Machine.execSetOwner d h s
  | .readLathLog d h => Sys2Proof.Machine.execReadLathLog d h s
  | .secFlush partId => Sys2Proof.Machine.execSecFlush partId s
  | .identDerived d r => Sys2Proof.Machine.execIdentDerived d r s
  | .jtagInstruction d isIdcode isBypass ir => Sys2Proof.Machine.execJtagInstruction d isIdcode isBypass ir s
  | .throttleBoundary meanPower => Sys2Proof.Machine.execThrottleBoundary meanPower s
  | .throttleUpdate meanPower tj => Sys2Proof.Machine.execThrottleUpdate meanPower tj s
  | .directLoad ctx eng va size fcBad => Sys2Proof.Machine.execDirectLoad ctx eng va size fcBad s
  | .directStore ctx eng va bytes => Sys2Proof.Machine.execDirectStore ctx eng va bytes s
  | .directAtomic ctx eng va opcode opq operand => Sys2Proof.Machine.execDirectAtomic ctx eng va opcode opq operand s
  | .release ctx eng scope => Sys2Proof.Machine.execRelease ctx eng scope s
  | .releaseStore ctx eng scope addr flag => Sys2Proof.Machine.execReleaseStore ctx eng scope addr flag s
  | .releaseAtomic ctx eng scope addr opcode opq operand => Sys2Proof.Machine.execReleaseAtomic ctx eng scope addr opcode opq operand s
  | .releaseComplete id => Sys2Proof.Machine.execReleaseComplete id s
  | .acquireLoad ctx eng scope addr size range => Sys2Proof.Machine.execAcquireLoad ctx eng scope addr size range s
  | .acquire ctx eng scope range => Sys2Proof.Machine.execAcquire ctx eng scope range s
  | .requestIssue id tag ecc fcBad => Sys2Proof.Machine.execRequestIssue id tag ecc fcBad s
  | .retryDue id => Sys2Proof.Machine.execRetryDue id s
  | .retrySend id => Sys2Proof.Machine.execRetrySend id s
  | .retryAbandon id => Sys2Proof.Machine.execRetryAbandon id s
  | .outcomeExpiry id => Sys2Proof.Machine.execOutcomeExpiry id s
  | .tagReleaseTimer tag => Sys2Proof.Machine.execTagReleaseTimer tag s
  | .readResp port p => Sys2Proof.Machine.execReadResp port p s
  | .atomicResp port p => Sys2Proof.Machine.execAtomicResp port p s
  | .completion port p => Sys2Proof.Machine.execCompletion port p s
  | .cwIncrease k => Sys2Proof.Machine.execCwIncrease k s
  | .read d port p ecc => Sys2Proof.Machine.execRead d port p ecc s
  | .write d port p ecc => Sys2Proof.Machine.execWrite d port p ecc s
  | .topcoatWrite d port p ecc => Sys2Proof.Machine.execTopcoatWrite d port p ecc s
  | .topcoatExpiry d k seq => Sys2Proof.Machine.execTopcoatExpiry d k seq s
  | .fetchAdd d port p ecc => Sys2Proof.Machine.execFetchAdd d port p ecc s
  | .swap d port p ecc => Sys2Proof.Machine.execSwap d port p ecc s
  | .compareSwap d port p ecc => Sys2Proof.Machine.execCompareSwap d port p ecc s
  | .fetchAnd d port p ecc => Sys2Proof.Machine.execFetchAnd d port p ecc s
  | .fetchOr d port p ecc => Sys2Proof.Machine.execFetchOr d port p ecc s
  | .fetchXor d port p ecc => Sys2Proof.Machine.execFetchXor d port p ecc s
  | .fetchMin d port p ecc => Sys2Proof.Machine.execFetchMin d port p ecc s
  | .fetchMax d port p ecc => Sys2Proof.Machine.execFetchMax d port p ecc s
  | .tallyInc d port p => Sys2Proof.Machine.execTallyInc d port p s
  | .dsEntryExpiry d k seq => Sys2Proof.Machine.execDsEntryExpiry d k seq s
  | .completionFlush d => Sys2Proof.Machine.execCompletionFlush d s
  | .invalidateResend snoop => Sys2Proof.Machine.execInvalidateResend snoop s
  | .invalidationTimeout id => Sys2Proof.Machine.execInvalidationTimeout id s
  | .invalidate port p => Sys2Proof.Machine.execInvalidate port p s
  | .invAck port p => Sys2Proof.Machine.execInvAck port p s
  | .dropAll port p => Sys2Proof.Machine.execDropAll port p s
  | .localStore off bytes => Sys2Proof.Machine.execLocalStore off bytes s
  | .homeAccessAnswer id ok => Sys2Proof.Machine.execHomeAccessAnswer id ok s
  | .islandWrite n val => Sys2Proof.Machine.execIslandWrite n val s
  | .hwinCtlWrite n val => Sys2Proof.Machine.execHwinCtlWrite n val s
  | .nodeEntryWrite n val => Sys2Proof.Machine.execNodeEntryWrite n val s
  | .activate n desc => Sys2Proof.Machine.execActivate n desc s
  | .epochTaken n => Sys2Proof.Machine.execEpochTaken n s
  | .load n save => Sys2Proof.Machine.execLoad n save s
  | .preempt n => Sys2Proof.Machine.execPreempt n s
  | .preemptNow n => Sys2Proof.Machine.execPreemptNow n s
  | .preemptStop n => Sys2Proof.Machine.execPreemptStop n s
  | .resumeRetry n => Sys2Proof.Machine.execResumeRetry n s
  | .resumeSkip n => Sys2Proof.Machine.execResumeSkip n s
  | .ctxAbort n => Sys2Proof.Machine.execCtxAbort n s
  | .ctxAbortComplete n posted => Sys2Proof.Machine.execCtxAbortComplete n posted s
  | .tagQuarantineEnd n => Sys2Proof.Machine.execTagQuarantineEnd n s
  | .contextRelease n => Sys2Proof.Machine.execContextRelease n s
  | .epochRoll n => Sys2Proof.Machine.execEpochRoll n s
  | .prodWrite n val => Sys2Proof.Machine.execProdWrite n val s
  | .descriptorFetch n ecc => Sys2Proof.Machine.execDescriptorFetch n ecc s
  | .engineSwitch e n => Sys2Proof.Machine.execEngineSwitch e n s
  | .copy n => Sys2Proof.Machine.execCopy n s
  | .store n => Sys2Proof.Machine.execStore n s
  | .topcoat n => Sys2Proof.Machine.execTopcoat n s
  | .contrib n => Sys2Proof.Machine.execContrib n s
  | .wait n => Sys2Proof.Machine.execWait n s
  | .waitMet n => Sys2Proof.Machine.execWaitMet n s
  | .signal n => Sys2Proof.Machine.execSignal n s
  | .reservedDescriptor n => Sys2Proof.Machine.execReservedDescriptor n s
  | .atsCompletion id a => Sys2Proof.Machine.execAtsCompletion id a s
  | .prgResponse id success => Sys2Proof.Machine.execPrgResponse id success s
  | .atsPriTimeout id => Sys2Proof.Machine.execAtsPriTimeout id s
  | .fqResume => Sys2Proof.Machine.execFqResume s
  | .atsInvalidate itag pasid va size => Sys2Proof.Machine.execAtsInvalidate itag pasid va size s
  | .invalidateCompletion itag => Sys2Proof.Machine.execInvalidateCompletion itag s
  | .tallyCfgWrite n val => Sys2Proof.Machine.execTallyCfgWrite n val s
  | .tallyTargetWrite n target => Sys2Proof.Machine.execTallyTargetWrite n target s
  | .dgqCfgWrite q val => Sys2Proof.Machine.execDgqCfgWrite q val s
  | .datagramSend q entry frame => Sys2Proof.Machine.execDatagramSend q entry frame s
  | .datagram port p buf => Sys2Proof.Machine.execDatagram port p buf s
  | .abortNotice port p => Sys2Proof.Machine.execAbortNotice port p s
  | .epPartAbort partId => Sys2Proof.Machine.execEpPartAbort partId s
  | .slotAdmit n => Sys2Proof.Machine.execSlotAdmit n s
  | .slotAdmitted n => Sys2Proof.Machine.execSlotAdmitted n s
  | .slotClose n => Sys2Proof.Machine.execSlotClose n s
  | .slotRelease n => Sys2Proof.Machine.execSlotRelease n s
  | .collContrib port p mis => Sys2Proof.Machine.execCollContrib port p mis s
  | .collPartial port p mis => Sys2Proof.Machine.execCollPartial port p mis s
  | .collExponents port p => Sys2Proof.Machine.execCollExponents port p s
  | .accumulatorUe c corrected => Sys2Proof.Machine.execAccumulatorUe c corrected s
  | .ready port p => Sys2Proof.Machine.execReady port p s
  | .join port p => Sys2Proof.Machine.execJoin port p s
  | .resultAck port p => Sys2Proof.Machine.execResultAck port p s
  | .closeAck port p => Sys2Proof.Machine.execCloseAck port p s
  | .doneAck port p => Sys2Proof.Machine.execDoneAck port p s
  | .resultNack port p => Sys2Proof.Machine.execResultNack port p s
  | .chunkFail port p => Sys2Proof.Machine.execChunkFail port p s
  | .collScreed port p => Sys2Proof.Machine.execCollScreed port p s
  | .freed port p => Sys2Proof.Machine.execFreed port p s
  | .close port p => Sys2Proof.Machine.execClose port p s
  | .done port p => Sys2Proof.Machine.execDone port p s
  | .collResult port p => Sys2Proof.Machine.execCollResult port p s
  | .recontrib port p => Sys2Proof.Machine.execRecontrib port p s
  | .progressTimeout n => Sys2Proof.Machine.execProgressTimeout n s
  | .closePhaseEnd n => Sys2Proof.Machine.execClosePhaseEnd n s
  | .doneTimeout n => Sys2Proof.Machine.execDoneTimeout n s
  | .collResendTimer d n => Sys2Proof.Machine.execCollResendTimer d n s
  | .fragmentRequestTimer c leg => Sys2Proof.Machine.execFragmentRequestTimer c leg s
  | .childStallTimer c leg => Sys2Proof.Machine.execChildStallTimer c leg s
  | .resultResendTimer c => Sys2Proof.Machine.execResultResendTimer c s
  | .joinReply port p => Sys2Proof.Machine.execJoinReply port p s
  | .joinRefuse port p => Sys2Proof.Machine.execJoinRefuse port p s
  | .memberScreed port p => Sys2Proof.Machine.execMemberScreed port p s
  | .chunkSend entry => Sys2Proof.Machine.execChunkSend entry s
  | .memberRecontrib port p => Sys2Proof.Machine.execMemberRecontrib port p s
  | .memberResult port p => Sys2Proof.Machine.execMemberResult port p s
  | .resultWriteDone entry chunk => Sys2Proof.Machine.execResultWriteDone entry chunk s
  | .resultNackTimer entry chunk => Sys2Proof.Machine.execResultNackTimer entry chunk s
  | .memberFreed port p => Sys2Proof.Machine.execMemberFreed port p s
  | .memberClose port p => Sys2Proof.Machine.execMemberClose port p s
  | .memberDone port p => Sys2Proof.Machine.execMemberDone port p s
  | .memberSilenceTimeout entry => Sys2Proof.Machine.execMemberSilenceTimeout entry s
  | .mboxSend d => Sys2Proof.Machine.execMboxSend d s
  | .mboxDataWrite d k val => Sys2Proof.Machine.execMboxDataWrite d k val s
  | .mboxTake d => Sys2Proof.Machine.execMboxTake d s
  | .mboxTimeout d => Sys2Proof.Machine.execMboxTimeout d s
  | .mboxAckPost d => Sys2Proof.Machine.execMboxAckPost d s
  | .mboxAckClear d => Sys2Proof.Machine.execMboxAckClear d s
  | .ping d => Sys2Proof.Machine.execPing d s
  | .getInfo d => Sys2Proof.Machine.execGetInfo d s
  | .fwLoad d => Sys2Proof.Machine.execFwLoad d s
  | .fwLoadDone d r => Sys2Proof.Machine.execFwLoadDone d r s
  | .dbgPeek d => Sys2Proof.Machine.execDbgPeek d s
  | .dbgPoke d => Sys2Proof.Machine.execDbgPoke d s
  | .dbgTrace d => Sys2Proof.Machine.execDbgTrace d s
  | .unknownMsg d => Sys2Proof.Machine.execUnknownMsg d s
  | .dbMaskWrite d val => Sys2Proof.Machine.execDbMaskWrite d val s
  | .abortAll d => Sys2Proof.Machine.execAbortAll d s
  | .partAbort n => Sys2Proof.Machine.execPartAbort n s
  | .partAbortComplete n => Sys2Proof.Machine.execPartAbortComplete n s
  | .partResume n => Sys2Proof.Machine.execPartResume n s
  | .clockLoss d c => Sys2Proof.Machine.execClockLoss d c s
  | .refclkReturn d => Sys2Proof.Machine.execRefclkReturn d s
  | .timeSync d port p => Sys2Proof.Machine.execTimeSync d port p s
  | .timeReply d port p => Sys2Proof.Machine.execTimeReply d port p s
  | .timeSyncTimer d => Sys2Proof.Machine.execTimeSyncTimer d s
  | .timeSourceLost d => Sys2Proof.Machine.execTimeSourceLost d s
  | .ptpMessage f => Sys2Proof.Machine.execPtpMessage f s
  | .timeCtlWrite d val => Sys2Proof.Machine.execTimeCtlWrite d val s
  | .timeNsRead d => Sys2Proof.Machine.execTimeNsRead d s
  | .supplyWarning vin => Sys2Proof.Machine.execSupplyWarning vin s
  | .supplyRise vin => Sys2Proof.Machine.execSupplyRise vin s
  | .holdEnd mean10 tjMax10 => Sys2Proof.Machine.execHoldEnd mean10 tjMax10 s
  | .holdEscalation => Sys2Proof.Machine.execHoldEscalation s
  | .undervoltageReset vin => Sys2Proof.Machine.execUndervoltageReset vin s
  | .undervoltResetEnd railsHeld => Sys2Proof.Machine.execUndervoltResetEnd railsHeld s
  | .railFault => Sys2Proof.Machine.execRailFault s
  | .powerHold meanPower => Sys2Proof.Machine.execPowerHold meanPower s
  | .thermalHold tj => Sys2Proof.Machine.execThermalHold tj s
  | .thermalShutdown d tj => Sys2Proof.Machine.execThermalShutdown d tj s
  | .thermalWarn d tj => Sys2Proof.Machine.execThermalWarn d tj s
  | .bootRomVerify d valid imageDigest => Sys2Proof.Machine.execBootRomVerify d valid imageDigest s
  | .firmwareStart d failed => Sys2Proof.Machine.execFirmwareStart d failed s
  | .switchStartComplete ownerValid => Sys2Proof.Machine.execSwitchStartComplete ownerValid s
  | .ucieTrained => Sys2Proof.Machine.execUcieTrained s
  | .ucieRetrain m => Sys2Proof.Machine.execUcieRetrain m s
  | .smbusBlockRead d cmd => Sys2Proof.Machine.execSmbusBlockRead d cmd s
  | .warningClearingFall vin => Sys2Proof.Machine.execWarningClearingFall vin s
  | .railResetEnd => Sys2Proof.Machine.execRailResetEnd s
  | .ucieModuleRetrained m => Sys2Proof.Machine.execUcieModuleRetrained m s
  | .vendorDefinedRequest d sess req => Sys2Proof.Machine.execVendorDefinedRequest d sess req s

end Sys2Proof.Machine
end

