-- ==== Sys2Proof/Machine/Pins.lean ====
section
/-! DEFINITION. The output pins of a part: what each drives in a state (R451, R479, R495, R515, R516). Pins hold nothing of their own: they
follow the registers and the state of start-up. -/

namespace Sys2Proof.Machine

open Sys2Proof

namespace Blk

/-- RDY_BSY is released and reads high: no BSY bit is set, and the clocks run (R451, R479, R516). -/
def pinRdyBsy (b : Blk) (d : Dev) : Bool := b.clocked d && b.ready d

/-- ALERT_N is driven low: on clock loss, on a device-fatal event until reset (R448), and while the reset of R495 or R496 holds. -/
def pinAlert (b : Blk) (d : Dev) : Bool := b.flag d offStatus 9 || (b.core d).boot.uv

/-- The modulators of a port carry light: the part runs, the port's input has light, and the link trains, is UP or recovers (R408, R415, R422,
R479, R516). -/
def pinModulators (b : Blk) (d : Dev) (port : Nat) : Bool :=
  b.inRun d && b.lit d port && decide (1 ≤ b.fld d (offPort d port 0) 63 60) && decide (b.fld d (offPort d port 0) 63 60 ≤ 3)

/-- PCIe is out of electrical idle (R479, R495, R508, R516). -/
def pinPcie (b : Blk) (d : Dev) : Bool := b.clocked d

end Blk

end Sys2Proof.Machine
end

