-- ==== Sys2Proof/Safety.lean ====
section
/-! DEFINITION. What claims are about: commands that name existing units, answers that leave queue and memories alone, parts that
serve, and memories in canonical form. -/

namespace Sys2Proof

open Sys2Proof.Machine

/-- Both memories are in canonical form (INVENTORY, Memory and ordering): fabric memory lists no line equal to an unlisted one, and
the accelerator's memory no zero byte. -/
abbrev memoryCanonical (s : State) : Prop := Tbl.wf s.fmem Line.unlisted = true ∧ Tbl.wf s.mem 0#8 = true

/-- The command answers a next state in which the block is `b`, while the queue and both memories stay as they are. -/
abbrev Answers (i : Instr) (s : State) (b : Blk) : Prop := exec i s = .next { s with b := b }

/-- A part takes host writes outside the mailbox region: its clocks run and READY is 1 (R452). -/
abbrev Served (b : Blk) (d : Dev) : Prop := b.clocked d = true ∧ b.ready d = true

/-- Nothing waits inside the switch for a calendar slot or an engine (R373, R426, R429). -/
abbrev SwQuiet (b : Blk) : Prop := b.sw.waiting = [] ∧ b.sw.home.waiting = []

/-- A request that a home carries out (R84, R95, R119, R124, R373, R429): the home serves and its engine takes the request now, the request
is sound and new, no acceptance is withheld and there is room for its entry and for its way of the directory, its bytes lie in a window of
its partition (`own`), its key generation is accepted, and its form is supported (`form`). -/
abbrev HomeCarries (s : State) (d : Dev) (port : Nat) (p : Packet) (own form : Bool) : Prop :=
  hasPort d port = true ∧ s.b.serving d = true ∧ s.b.engineBusy d p = false ∧ s.b.dirFull d p = false ∧
  s.b.soundAt d p = true ∧ (s.b.home d).withheld = false ∧ s.b.snoopsFull d = false ∧ s.b.noRoom d p = false ∧
  s.b.findDs d (Packet.stream p) (Packet.seq p) = none ∧ own = true ∧ s.b.keyOk d (Packet.part p) (Packet.keyGen p) = true ∧ form = true

/-- A good marker of an operation on a wavelength of a port, its AM_SEQ not acted on before (R405, R406). -/
abbrev MarkerNew (b : Blk) (d : Dev) (port wl op mk : Nat) : Prop :=
  hasPort d port = true ∧ hasWl wl = true ∧ b.inRun d = true ∧ Blk.markerOk mk = true ∧ bits mk 55 48 = op ∧
  (b.port d port).acted ≠ some (bits mk 31 16)

/-- A packet for the end point that passes the header checks of an arrival (R9, R42, R58, R541). -/
abbrev EpSound (b : Blk) (p : Packet) : Prop :=
  b.mine p = true ∧ Packet.hcrcOk p = true ∧ Packet.malformed p = false ∧ b.lateAt .ep p = false

/-- The head descriptor of a program can begin issuing (R142): the context is RESIDENT and runs on an engine. -/
abbrev HeadReady (s : State) (n : Nat) (d : ProgDesc) (rest : List ProgDesc) : Prop :=
  hasCtx n = true ∧ s.b.serving .ep = true ∧ s.b.ctxState n = 2 ∧ (s.b.ctx n).engine.isSome = true ∧ (s.b.ctx n).prog = d :: rest ∧
  d.begun = false

/-- A part whose SPDM responder serves every request: its clocks run, it is not in the recovery state, its identity has been derived
(R383, R390, R510). -/
abbrev SpdmReady (b : Blk) (d : Dev) : Prop :=
  b.clocked d = true ∧ b.recovery d = false ∧ b.flag d offSecState 2 = false ∧ b.flag d offSecState 3 = true

/-- The part a Genard command of one row goes to: none where its payload names another CMD (R394, log 100). -/
def genardPart (d : Dev) (h : GenardHead) (cmd : Nat) : Option Dev := if Blk.reqCmd h.req = cmd then some d else none

/-- The part an SPDM request other than GET_VERSION and GET_CAPABILITIES goes to, Genard commands among them (R391, R394). -/
def spdmPart : Instr → Option Dev
  | .negotiateAlgorithms d _ => some d
  | .getDigests d _ => some d
  | .getCertificate d _ _ => some d
  | .challenge d _ _ _ => some d
  | .getMeasurements d _ _ _ => some d
  | .keyExchange d => some d
  | .finish d _ _ => some d
  | .getEncapsulatedRequest d _ => some d
  | .deliverEncapsulatedResponse d _ _ => some d
  | .heartbeat d _ => some d
  | .keyUpdate d _ => some d
  | .endSession d _ => some d
  | .respondIfReady d => some d
  | .spdmUnsupported d _ => some d
  | .vendorDefinedRequest d _ _ => some d
  | .install d h => genardPart d h 1
  | .makeCurrent d h => genardPart d h 2
  | .retire d h => genardPart d h 3
  | .retireForce d h => genardPart d h 4
  | .clear d h => genardPart d h 5
  | .partStatus d h => genardPart d h 0x10
  | .readCounters d h => genardPart d h 0x11
  | .readSlot d h => genardPart d h 0x12
  | .readEvents d h => genardPart d h 0x13
  | .setOwner d h => genardPart d h 0x20
  | .readLathLog d h => genardPart d h 0x21
  | _ => none

/-- A Genard command of one CMD in an open session of a part whose responder serves, its reserved fields 0 and n argument bytes long
(R394). -/
abbrev GenardIn (b : Blk) (d : Dev) (h : GenardHead) (x : Session) (cmd n : Nat) : Prop :=
  SpdmReady b d ∧ b.session d h.sess = some x ∧ x.open_ = true ∧ Blk.reqCmd h.req = cmd ∧ Blk.reqOk h.req n = true

/-- A collective packet of one opcode and CTL that slot n of the switch takes: it serves, the packet is sound, no abort of its partition
meets it, a slot in ACTIVE or CLOSING holds its PARTITION and COLL_ID, its generation is accepted (R223), and neither it nor anything before it
waits for a calendar slot or an engine (R373, R426). -/
abbrev CollTaken (b : Blk) (port : Nat) (p : Packet) (op ctl n : Nat) : Prop :=
  hasPort .sw port = true ∧ b.serving .sw = true ∧ Packet.opcode p = op ∧ (ctl = 0 ∨ leAt p.payload 0 1 = ctl) ∧ Packet.hcrcOk p = true ∧
  Packet.malformed p = false ∧ b.pidAborted (Packet.part p) = false ∧ Packet.tailMarked p = false ∧ b.slotFor p = some n ∧
  b.keyOk .sw (Packet.part p) (Packet.keyGen p) = true ∧ (op = 0x22 → Packet.checkOk p = true) ∧ b.collWaits p = false ∧ b.sw.waiting = []

/-- One from below, of leg e; a slot in CLOSING takes acknowledgements only (R223). -/
abbrev CollBelow (b : Blk) (port : Nat) (p : Packet) (op ctl n e : Nat) (ack : Bool) : Prop :=
  CollTaken b port p op ctl n ∧ b.legOf n port p = some e ∧ (ack = true ∨ b.slotState n = 2)

/-- One from above, through UP_PORT. -/
abbrev CollAbove (b : Blk) (port : Nat) (p : Packet) (op ctl n : Nat) : Prop :=
  CollTaken b port p op ctl n ∧ b.isRoot n = false ∧ b.upPort n = port

/-- A collective packet that matches one entry of the end point, x (R223). -/
abbrev MemberTaken (b : Blk) (port : Nat) (p : Packet) (op ctl : Nat) (named : Bool) (x : CollEnt) : Prop :=
  hasPort .ep port = true ∧ b.serving .ep = true ∧ Packet.opcode p = op ∧ (ctl = 0 ∨ leAt p.payload 0 1 = ctl) ∧
  (b.mine p = true ∨ Packet.dst p = 16383) ∧ Packet.hcrcOk p = true ∧ Packet.malformed p = false ∧ b.lateAt .ep p = false ∧
  b.keyOk .ep (Packet.part p) (Packet.keyGen p) = true ∧ b.collMatch p named = [x] ∧ b.findColl x.id = some x

end Sys2Proof
end

