-- ==== Sys2Proof/Certificates/Slice0/Obligations.lean ====
section
/-! DEFINITION. The statements for the provers. Completion statements name, command by command, the operation of the model that is
the command's own effect under the rule cited there; the statements after them say what those operations do in the spec's terms. -/

open Sys2Proof Sys2Proof.Machine

/-! ## The block -/

/-- A STEP RUNS THE COMMAND AT THE FRONT of the queue, with the rest of the queue. -/
def Obligations.StepRunsFrontCommand : Prop :=
  ∀ (s : State) (c : Instr) (rest : List Instr), s.pending = c :: rest → step s = exec c { s with pending := rest }

/-! ## Completion: every command, by family -/

/-- HOST ACCESSES COMPLETE (R440, R441, R449, R450, R452, R464). A write of BAR0 of a good size goes to its register, in the mailbox region
whatever READY shows, elsewhere while READY is 1 and otherwise into REFUSED_WR alone; a read answers the register and clears the RC
fields it covers; an access of another size or alignment is dropped and counted, or answered as unsupported. -/
def Obligations.HostAccessesComplete : Prop :=
  (∀ (s : State) (d : Dev) (off size v : Nat), hasBar0 d off → s.b.clocked d → Blk.goodAccess off size →
    0x10000 ≤ off → off < 0x20000 →
    Answers (.writeRegister d (.bar0 off size v)) s (s.b.writeMbox d (off - off % 8) size (s.b.wholeWrite d off size v))) ∧
  (∀ (s : State) (d : Dev) (off size v : Nat), hasBar0 d off → Served s.b d → Blk.goodAccess off size →
    (off < 0x10000 ∨ 0x20000 ≤ off) →
    Answers (.writeRegister d (.bar0 off size v)) s (match d with
      | .sw => s.b.writeSw off size (off - off % 8) (s.b.wholeWrite .sw off size v)
      | .ep => s.b.writeEp off size (off - off % 8) (s.b.wholeWrite .ep off size v))) ∧
  (∀ (s : State) (d : Dev) (off size v : Nat), hasBar0 d off → s.b.clocked d → s.b.ready d = false →
    Blk.goodAccess off size → (off < 0x10000 ∨ 0x20000 ≤ off) →
    Answers (.writeRegister d (.bar0 off size v)) s (s.b.count d offRefused 31 0 1)) ∧
  (∀ (s : State) (d : Dev) (v : Nat), Served s.b d → v % 2 = 0 →
    ∃ t, exec (.writeRegister d (.bar0 offCtl 8 v)) s = .next t ∧ t.b.fld d offCtl 63 32 = v / 2 ^ 32 % 2 ^ 32) ∧
  (∀ (s : State) (d : Dev), s.b.clocked d →
    (∃ t, exec (.writeRegister d (.busMaster true)) s = .next t ∧ (t.b.core d).busMaster) ∧
    (∃ t, exec (.writeRegister d (.busMaster false)) s = .next t ∧ (t.b.core d).busMaster = false) ∧
    (∀ on, ∃ t, exec (.writeRegister d (.msixEnable on)) s = .next t ∧ (t.b.core d).msixEn = on)) ∧
  (∀ (s : State) (d : Dev) (off size : Nat) (ecc : Ecc), hasBar0 d off → s.b.clocked d → Blk.goodAccess off size →
    ecc.ue = [] → ecc.ce = [] → s.b.sw.badLines = [] →
    ∃ t, exec (.readClear d off size ecc) s = .next t ∧
      t.b.out = .readData d off size ((s.b.readReg d (off - off % 8) ecc >>> (8 * (off % 8))) % 2 ^ (8 * size)) :: s.b.out ∧
      (∀ x, x ≠ off - off % 8 → x ≠ offTimeFrac → t.b.reg d x = s.b.reg d x)) ∧
  (∀ (s : State) (d : Dev) (ecc : Ecc), s.b.clocked d →
    ∃ t, exec (.readClear d offRefused 8 ecc) s = .next t ∧ t.b.fld d offRefused 31 0 = 0) ∧
  (∀ (s : State) (d : Dev) (off size : Nat), hasBar0 d off → s.b.clocked d → Blk.goodAccess off size = false →
    Answers (.bar0BadAccess d true off size) s (s.b.count d offRefused 31 0 1) ∧
    Answers (.bar0BadAccess d false off size) s (s.b.emit (.readUnsupported d off))) ∧
  (∀ (s : State) (d : Dev) (v : Nat), hasVector v → Served s.b d →
    ∃ t, exec (.msixUnmask d v) s = .next t ∧ t.b.vectorMasked d v = false ∧
      (s.b.flag d offMsixPba v → s.b.canSignal d → t.b.flag d offMsixPba v = false ∧ t.b.out = .msix d v :: s.b.out) ∧
      (s.b.flag d offMsixPba v = false → t.b.out = s.b.out))

/-- RESETS AND START-UP COMPLETE (R7, R334, R385, R440, R479-R481, R495, R496, R508-R511, R518, R523). A reset leaves every register of the
part at its reset value but CPT_STATUS, which names the cause, and ends every lath and request of it; clock loss stops the part; the
steps of start-up follow one another. -/
def Obligations.ResetsAndStartUpComplete : Prop :=
  (∀ (s : State) (d : Dev),
    ∃ t, exec (.powerOn d) s = .next t ∧ t.b.fld d offCptStatus 63 60 = 1 ∧ (t.b.core d).boot = Boot.off ∧ t.b.clocked d = false ∧
      (∀ off, off ≠ offCptStatus → t.b.reg d off = regReset d off) ∧ (d = .sw → t.fmem = []) ∧ t.mem = s.mem ∧
      (∀ e off, e ≠ d → t.b.reg e off = s.b.reg e off)) ∧
  (∀ (s : State) (d : Dev), (s.b.boot d).perst = false → (s.b.boot d).uv = false → ((s.b.boot d).halt = .clockLost → (s.b.boot d).noRef = false) →
    ∃ t, exec (.perstAssert d) s = .next t ∧ t.b.fld d offCptStatus 63 60 = 2 ∧ (t.b.boot d).perst ∧ t.b.clocked d = false ∧
      t.b.flag d offCptStatus 59 = s.b.flag d offCptStatus 59 ∧ (∀ off, off ≠ offCptStatus → t.b.reg d off = regReset d off) ∧
      (d = .sw → t.fmem = []) ∧ t.mem = s.mem ∧ (∀ e off, e ≠ d → t.b.reg e off = s.b.reg e off)) ∧
  (∀ (s : State) (d : Dev), (s.b.boot d).noRef = false → (s.b.boot d).uv = false → (s.b.boot d).released = false →
    ∃ t, exec (.perstRelease d) s = .next t ∧ (t.b.boot d).released ∧ (t.b.boot d).perst = false ∧ (t.b.core d).pcieUp) ∧
  (∀ (s : State) (d : Dev) (up : Bool), s.b.clocked d →
    ∃ t, exec (.pcieLinkReset d up) s = .next t ∧ (t.b.core d).busMaster = false ∧ (t.b.core d).msixEn = false ∧ (t.b.core d).pcieUp = up) ∧
  (∀ (s : State) (d : Dev) (c : ClockCause), hasCause c → (s.b.boot d).released → (s.b.boot d).halt = .none →
    ∃ t, exec (.clockLoss d c) s = .next t ∧ t.b.clocked d = false ∧ t.b.flag d offStatus 11 ∧ t.b.flag d offStatus 9 ∧
      t.b.ready d = false ∧ (d = .sw → t.fmem = [] ∧ t.b.sw.lath.job = none) ∧ t.mem = s.mem) ∧
  (∀ (s : State) (d : Dev), (s.b.boot d).halt = .clockLost → (s.b.boot d).resetDue = false →
    ∃ t, exec (.refclkReturn d) s = .next t ∧ (t.b.boot d).halt = .waitPerst ∧ t.b.flag d offCptStatus 59 ∧
      t.b.flag d offStatus 10) ∧
  (∀ (s : State) (d : Dev) (dg : Digest), s.b.inRun d → (s.b.boot d).romOk = false → s.b.recovery d = false →
    (∃ t, exec (.bootRomVerify d true dg) s = .next t ∧ (t.b.boot d).romOk ∧ (t.b.core d).fwDigest = dg ∧
      (t.b.core d).fwReg = Config.sha512 (zeros 64 ++ Blk.digestBytes dg)) ∧
    (∃ t, exec (.bootRomVerify d false dg) s = .next t ∧ t.b.recovery d ∧ t.b.flag d offSecState 5)) ∧
  (∀ (s : State) (d : Dev) (failed : List Nat), s.b.inRun d → (s.b.boot d).romOk → (s.b.boot d).fw = false →
    ∃ t, exec (.firmwareStart d failed) s = .next t ∧ (t.b.boot d).fw ∧ (t.b.core d).fwStart = s.b.timeNs d) ∧
  (∀ (s : State) (d : Dev), s.b.inRun d → (s.b.boot d).fw → (s.b.boot d).ident = false → s.b.flag d offSecState 2 = false →
    (∃ t, exec (.identDerived d .ok) s = .next t ∧ t.b.flag d offSecState 3 ∧
      (t.b.core d).idDigest = some (Config.idDigest (Blk.devNo d))) ∧
    (∃ t, exec (.identDerived d .failed) s = .next t ∧ t.b.flag d offSecState 2 ∧ t.b.flag d offStatus 10)) ∧
  (∀ (s : State) (d : Dev) (cmd off : Nat), s.b.clocked d → (s.b.boot d).noRef = false →
    (cmd, off) ∈ [(0x10, offStatus), (0x11, offCptStatus), (0x12, offPwrStatus)] →
    ∃ t, exec (.smbusBlockRead d cmd) s = .next t ∧ t.b.out = .smbus d (8#8 :: leBytes 8 (s.b.reg d off).toNat) :: s.b.out) ∧
  (∀ (s : State) (vin : Nat), vin < 1900 → s.b.swc.boot.uv = false →
    ∃ t, exec (.undervoltageReset vin) s = .next t ∧ t.b.fld .sw offCptStatus 63 60 = 3 ∧ t.b.clocked .sw = false ∧ t.b.swc.boot.uv ∧
      t.fmem = []) ∧
  (∀ (s : State) (held : Bool), s.b.swc.boot.uv → s.b.swc.boot.perst = false → s.b.swc.boot.noRef = false → s.b.swc.boot.released = false →
    ∃ t, exec (.undervoltResetEnd held) s = .next t ∧ t.b.swc.boot.uv = false ∧ t.b.swc.boot.released ∧
      (held = false → t.b.fld .sw offCptStatus 63 60 = 1)) ∧
  (∀ (s : State), s.b.epc.boot.uv = false →
    ∃ t, exec .railFault s = .next t ∧ t.b.fld .ep offCptStatus 63 60 = 3 ∧ t.b.clocked .ep = false ∧ t.b.epc.boot.uv ∧ t.mem = s.mem) ∧
  (∀ (s : State), s.b.epc.boot.uv → s.b.epc.boot.perst = false → s.b.epc.boot.noRef = false → s.b.epc.boot.released = false →
    ∃ t, exec .railResetEnd s = .next t ∧ t.b.epc.boot.uv = false ∧ t.b.epc.boot.released) ∧
  (∀ (s : State) (valid : Bool), s.b.inRun .sw → s.b.swc.boot.fw → s.b.swc.boot.ident → s.b.swc.boot.started = false →
    s.b.sw.lath.heldMsg = none →
    ∃ t, exec (.switchStartComplete valid) s = .next t ∧ t.b.swc.boot.started ∧
      t.b.sw.lath.owner = (if valid then s.b.sw.lath.flashOwner else none) ∧
      t.b.flag .sw offSecState 4 = t.b.sw.lath.owner.isSome) ∧
  (∀ (s : State), s.b.inRun .ep → s.b.epc.boot.fw → s.b.ep.trained = false →
    ∃ t, exec .ucieTrained s = .next t ∧ t.b.ep.trained ∧
      (s.b.epc.boot.ident → s.b.epc.boot.started = false → t.b.epc.boot.started ∧ t.b.flag .ep offStatus 14 = false)) ∧
  (∀ (s : State) (m : Nat), s.b.inRun .ep → s.b.ep.trained → hasModule m →
    ∃ t, exec (.ucieRetrain m) s = .next t ∧ m ∈ t.b.ep.ucie) ∧
  (∀ (s : State) (m : Nat), s.b.inRun .ep → hasModule m →
    ∃ t, exec (.ucieModuleRetrained m) s = .next t ∧ m ∉ t.b.ep.ucie)

/-- SUPPLY AND TEMPERATURE COMPLETE (R377, R492-R494, R497-R499, R501, R505): a warning brings the hold into force, its end clears it, its
escalation aborts every partition that runs; the throttle takes the step of its rule; thermal shutdown stops the part. -/
def Obligations.SupplyCompletes : Prop :=
  (∀ (s : State) (vin : Nat), s.b.inRun .sw → vin < 2150 → s.b.sw.hold.causes = [] →
    ∃ t, exec (.supplyWarning vin) s = .next t ∧ t.b.sw.hold.causes = [1] ∧ t.b.sw.hold.began = s.b.now .sw ∧
      t.b.fld .sw offCptStatus 49 48 = 1 ∧ t.b.fld .sw offCptStatus 47 46 = 1 ∧ t.b.flag .sw offStatus 12 ∧ t.b.ready .sw = false ∧
      t.b.flag .sw offDbStatus 6) ∧
  (∀ (s : State) (vin : Nat), s.b.inRun .sw → 2200 < vin → 1 ∈ s.b.sw.hold.causes → s.b.sw.hold.riseAt = none →
    ∃ t, exec (.supplyRise vin) s = .next t ∧
      t.b.sw.hold = { s.b.sw.hold with riseAt := some (s.b.now .sw), minVin := min s.b.sw.hold.minVin vin }) ∧
  (∀ (s : State) (vin : Nat), s.b.inRun .sw → 2150 ≤ vin → vin < 2200 → 1 ∈ s.b.sw.hold.causes → s.b.supplyBack = false →
    ∃ t, exec (.warningClearingFall vin) s = .next t ∧
      t.b.sw.hold = { s.b.sw.hold with riseAt := none, minVin := min s.b.sw.hold.minVin vin }) ∧
  (∀ (s : State) (mean10 : Nat) (tjMax10 : Int), s.b.inRun .sw → s.b.sw.hold.causes ≠ [] →
    (∀ c ∈ s.b.sw.hold.causes, c = 1 ∧ s.b.supplyBack ∨ c = 2 ∧ mean10 + 70 < s.b.limitW ∨ c = 3 ∧ tjMax10 < 100) →
    ∃ t, exec (.holdEnd mean10 tjMax10) s = .next t ∧ t.b.sw.hold.causes = [] ∧ t.b.fld .sw offCptStatus 49 48 = 0 ∧
      t.b.flag .sw offStatus 12 = false ∧ t.b.flag .sw offDbStatus 7) ∧
  (∀ (s : State), s.b.inRun .sw → s.b.fld .sw offCptStatus 49 48 = 1 → s.b.sw.hold.began + 50000000 ≤ s.b.now .sw →
    ∃ t, exec .holdEscalation s = .next t ∧ t.b.fld .sw offCptStatus 49 48 = 2 ∧
      (∀ i, i < 64 → t.b.pstate i = if s.b.pstate i = 1 then 2 else s.b.pstate i)) ∧
  (∀ (s : State) (mean : Nat), s.b.inRun .sw → s.b.fld .sw offPwrStatus 31 29 = 7 → s.b.limitW + 30 ≤ mean →
    ∃ t, exec (.powerHold mean) s = .next t ∧ 2 ∈ t.b.sw.hold.causes) ∧
  (∀ (s : State) (tj : Int), s.b.inRun .sw → 110 ≤ tj →
    ∃ t, exec (.thermalHold tj) s = .next t ∧ 3 ∈ t.b.sw.hold.causes) ∧
  (∀ (s : State) (p : Nat) (tj : Int), s.b.inRun .sw → s.b.anyMasked = false → s.b.sw.thrAt + 1000000 ≤ s.b.now .sw →
    let kp := if p + 70 < s.b.limitW then 0 else min 7 ((p + 70 - s.b.limitW) / 10 + 1)
    let kt := if tj < 95 then 0 else min 7 ((tj - 95).toNat / 2 + 1)
    ∃ t, exec (.throttleUpdate p tj) s = .next t ∧ t.b.fld .sw offPwrStatus 31 29 = max kp kt ∧ t.b.fld .sw offSecState 18 16 = 0) ∧
  (∀ (s : State) (p : Nat), s.b.inRun .sw → s.b.anyMasked → s.b.timeNs .sw / 100000000 ≠ s.b.sw.thrNo →
    let kp := if p + 70 < s.b.limitW then 0 else min 7 ((p + 70 - s.b.limitW) / 10 + 1)
    ∃ t, exec (.throttleBoundary p) s = .next t ∧ t.b.fld .sw offPwrStatus 31 29 = kp ∧ t.b.fld .sw offSecState 18 16 = kp ∧
      t.b.sw.thrNo = s.b.timeNs .sw / 100000000) ∧
  (∀ (s : State) (d : Dev) (tj : Int), s.b.clocked d → 95 ≤ tj →
    ∃ t, exec (.thermalWarn d tj) s = .next t ∧ t.b.flag d offCptEvent 7 ∧ t.b.fld d offPwrStatus 39 32 = ofSigned 8 tj) ∧
  (∀ (s : State) (d : Dev) (tj : Int), s.b.clocked d → 120 ≤ tj →
    ∃ t, exec (.thermalShutdown d tj) s = .next t ∧ t.b.clocked d = false ∧ t.b.flag d offStatus 10 ∧
      (d = .sw → t.fmem = []) ∧ t.mem = s.mem)

/-- PARTITION ABORT AND TIME COMPLETE (R450, R465-R468, R470, R486, R488-R490, R502, R503). ABORT of a RUNNING partition leads to ABORTING
with its slots FREE, completion to ABORTED, RESUME back to RUNNING; a command the state does not take sets CMD_ERR. Every link-local
TIME_SYNC is answered, a matching TIME_REPLY ends its exchange and a good one drives the servo. -/
def Obligations.AbortAndTimeComplete : Prop :=
  (∀ (s : State), Served s.b .sw →
    ∃ t, exec (.abortAll .sw) s = .next t ∧ ∀ i, i < 64 → t.b.pstate i = if s.b.pstate i = 1 then 2 else s.b.pstate i) ∧
  (∀ (s : State), Served s.b .ep → Answers (.abortAll .ep) s (s.b.abortEvery 3)) ∧
  (∀ (s : State) (i : Nat), hasIndex i → Served s.b .sw →
    (s.b.pstate i = 1 → ∃ t, exec (.partAbort i) s = .next t ∧ t.b.pstate i = 2 ∧ t.b.fld .sw (offPartState i) 11 8 = 1 ∧
      (∀ k, k < s.b.partNslots i → t.b.slotState (s.b.partFirstSlot i + k) = 0) ∧
      (∀ h ∈ t.b.sw.home.held, Packet.part h.pkt ≠ s.b.partId i)) ∧
    (2 ≤ s.b.pstate i → exec (.partAbort i) s = .next s) ∧
    (s.b.pstate i = 0 → Answers (.partAbort i) s (s.b.setFlag .sw (offPartCtl i) 8 true)) ∧
    (s.b.pstate i = 3 → ∃ t, exec (.partResume i) s = .next t ∧ t.b.pstate i = 1 ∧ t.b.sw = s.b.sw) ∧
    (s.b.pstate i ≠ 3 → Answers (.partResume i) s (s.b.setFlag .sw (offPartCtl i) 8 true))) ∧
  (∀ (s : State) (i : Nat), hasIndex i → s.b.pstate i = 2 →
    ∃ t, exec (.partAbortComplete i) s = .next t ∧ t.b.pstate i = 3 ∧ t.b.sw = s.b.sw) ∧
  (∀ (s : State) (d : Dev) (port : Nat) (p : Packet), hasPort d port → s.b.serving d → s.b.portUp d port →
    Packet.hcrcOk p → Packet.malformed p = false → (d = .ep → s.b.lateAt .ep p = false) →
    let b := s.b.owe d port (Packet.tc p) (Packet.slots p)
    (Packet.linkLocal p → Packet.opcode p = 0x30 → Answers (.timeSync d port p) s (b.answerSync d port p)) ∧
    (d = .ep → Packet.linkLocal p = false → b.mine p → Packet.opcode p = 0x30 →
      Answers (.timeSync .ep port p) s (b.epSend port (b.timeReplyPacket .ep p (Packet.plane p) (Packet.src p) (b.stamp .ep)))) ∧
    (Packet.linkLocal p → Packet.opcode p = 0x31 → Answers (.timeReply d port p) s (b.takeReply d port p)) ∧
    (∀ x, (s.b.core d).servo.sync = some x → x.port = port → x.id = Packet.f p 127 112 → s.b.timeSrc d = 2 →
      ((b.takeReply d port p).core d).servo.sync = none ∧
      (let t2 := beNat (slice p.payload 0 10)
       let t3 := beNat (slice p.payload 10 10)
       let delay : Int := (toSigned 80 (s.b.stamp d + 2 ^ 80 - x.t1) - toSigned 80 (t3 + 2 ^ 80 - t2)) / 2
       s.b.now d ≤ x.at_ + 100000 → 0 ≤ delay → delay ≤ 655360000 →
         ((b.takeReply d port p).core d).servo.lastGood = s.b.now d ∧
         (b.takeReply d port p).fld d offTimeStatus 61 58 = min (Packet.f p 109 106 + 1) 15))) ∧
  (∀ (s : State) (d : Dev), s.b.servoRuns d → s.b.timeSrc d = 2 →
    (∀ n, s.b.srcPort d = some n → (s.b.core d).servo.lastSync + 1000000 ≤ s.b.now d →
      ∃ t, exec (.timeSyncTimer d) s = .next t ∧ (t.b.core d).servo.lastSync = s.b.now d ∧
        (t.b.core d).servo.sync.map SyncOut.id = some (s.b.core d).servo.nextId ∧
        (t.b.port d n).tx.map TxPkt.pkt = (s.b.port d n).tx.map TxPkt.pkt ++ [s.b.timeSyncPacket d n (s.b.core d).servo.nextId]) ∧
    ((s.b.core d).servo.lost = false → (s.b.core d).servo.lastGood + 10000000 ≤ s.b.now d →
      ∃ t, exec (.timeSourceLost d) s = .next t ∧ t.b.timeLocked d = false ∧ t.b.flag d offCptEvent 2 ∧
        (t.b.core d).servo.lost ∧ (t.b.core d).servo.trim = (s.b.core d).servo.trim)) ∧
  (∀ (s : State), s.b.servoRuns .sw →
    (∃ t, exec (.ptpMessage .other) s = .next t ∧ t.b.sw.mgmtDrop = s.b.sw.mgmtDrop + 1 ∧ t.b.swc = s.b.swc) ∧
    (∀ off syncEnd, s.b.timeSrc .sw = 1 → ∃ t, exec (.ptpMessage (.ptp off syncEnd)) s = .next t ∧
      (t.b.core .sw).servo.lastGood = s.b.now .sw ∧ t.b.fld .sw offTimeStatus 61 58 = 0 ∧
      (12800 < off.natAbs → t.b.timeLocked .sw = false))) ∧
  (∀ (s : State) (d : Dev) (v : Nat), Served s.b d →
    let w := s.b.writeFields d offTimeCtl v
    Answers (.timeCtlWrite d v) s (if w.fld d offTimeCtl 63 46 = s.b.fld d offTimeCtl 63 46 then w else w.restartServo d) ∧
    (w.restartServo d).timeLocked d = false ∧ (w.restartServo d).fld d offTimeStatus 61 58 = 15) ∧
  (∀ (s : State) (d : Dev), s.b.clocked d →
    ∃ t, exec (.timeNsRead d) s = .next t ∧ t.b.out = .readData d offTimeNs 8 (s.b.timeNs d) :: s.b.out ∧
      t.b.reg d offTimeFrac = BitVec.ofNat 64 (s.b.timeFrac d) ∧ (∀ off, off ≠ offTimeFrac → t.b.reg d off = s.b.reg d off))

/-- THE MAILBOX COMPLETES (R453-R461): sending, collision, take, timeout and acknowledges as R455 has them; each message is taken out of
the queue and answered with its code and response; MASK is written. -/
def Obligations.MailboxCompletes : Prop :=
  (∀ (s : State) (d : Dev), s.b.clocked d →
    let m := (s.b.core d).mbox
    (s.b.mboxFull d = false →
      ∃ t, exec (.mboxSend d) s = .next t ∧ t.b.mboxFull d ∧
        (t.b.core d).mbox = { m with latched := s.b.getBytes d offMboxData 64, collided := false, sentAt := s.b.now d }) ∧
    (s.b.mboxFull d →
      ∃ t, exec (.mboxSend d) s = .next t ∧ t.b.mboxFull d ∧ (t.b.core d).mbox = { m with collided := true } ∧
        t.b.flag d offMboxCtl 2 ∧ t.b.flag d offDbStatus 2) ∧
    (∀ k v, hasMboxData k →
      ∃ t, exec (.mboxDataWrite d k v) s = .next t ∧ t.b.reg d (offMboxData + 8 * k) = BitVec.ofNat 64 v ∧
        (t.b.core d).mbox = { m with collided := m.collided || s.b.mboxFull d }) ∧
    (s.b.mboxFull d → ((s.b.core d).boot.fw ∨ s.b.recovery d) → m.acks.length < 8 →
      ∃ t, exec (.mboxTake d) s = .next t ∧ t.b.mboxFull d = false ∧
        (t.b.core d).mbox = (if m.collided
          then { m with acks := m.acks ++ [{ token := msgToken m.latched, msg := msgCode m.latched, code := 0x101, resp := [] }] }
          else { m with taken := m.taken ++ [m.latched] })) ∧
    (s.b.mboxFull d → m.sentAt + 1000000 * s.b.fld d offMboxCtl 31 16 ≤ s.b.now d →
      ∃ t, exec (.mboxTimeout d) s = .next t ∧ t.b.mboxFull d = false ∧ t.b.flag d offMboxCtl 3 ∧ t.b.flag d offDbStatus 1 ∧
        (t.b.core d).mbox = m) ∧
    (∀ a rest, m.acks = a :: rest → s.b.flag d offMboxAck 63 = false →
      ∃ t, exec (.mboxAckPost d) s = .next t ∧ (t.b.core d).mbox = { m with acks := rest } ∧ t.b.flag d offMboxAck 63 ∧
        t.b.fld d offMboxAck 47 32 = a.token % 65536 ∧ t.b.fld d offMboxAck 31 16 = a.msg % 65536 ∧
        t.b.fld d offMboxAck 15 0 = a.code % 65536 ∧ t.b.flag d offDbStatus 0) ∧
    (∃ t, exec (.mboxAckClear d) s = .next t ∧ t.b.flag d offMboxAck 63 = false ∧
      t.b.fld d offMboxAck 47 0 = s.b.fld d offMboxAck 47 0 ∧ (∀ off, off ≠ offMboxAck → t.b.reg d off = s.b.reg d off)) ∧
    (∀ v, ∃ t, exec (.dbMaskWrite d v) s = .next t ∧ t.b.fld d offDbMask 31 0 = v % 2 ^ 32 ∧
      t.b.fld d offDbStatus 31 0 = s.b.fld d offDbStatus 31 0)) ∧
  (∀ (s : State) (d : Dev) (code : Nat) (m : List Byte), s.b.clocked d →
    (s.b.core d).mbox.taken.find? (fun x => msgCode x == code) = some m → s.b.stateRefuses d code = none →
    let b := s.b.modMbox d (fun x => { x with taken := x.taken.erase m })
    (code = 1 → Answers (.ping d) s (if msgReserved m 8 then b.ack d m 0 (msgArgs m 0 8) else b.ack d m 0x103 [])) ∧
    (code = 2 → msgReserved m 0 → s.b.recovery d = false →
      Answers (.getInfo d) s (b.ack d m 0 (leBytes 4 (Config.fwVersion (s.b.core d).fwDigest) ++ leBytes 4 (Config.fwSvn (s.b.core d).fwDigest)
        ++ leBytes 8 (s.b.core d).fwStart))) ∧
    (code = 0x20 → msgReserved m 12 → (s.b.core d).mbox.fwJob = none → (d = .sw → s.b.inSupplyHold = false) →
      msgArg m 0 8 % 4096 = 0 → msgArg m 8 4 ≤ 0x2000000 → s.b.canDma d →
      Answers (.fwLoad d) s (b.modMbox d (fun x => { x with fwJob := some m }))) ∧
    (s.b.lockedPart d → (code = 0x40 → Answers (.dbgPeek d) s (b.ack d m 0x102 [])) ∧
      (code = 0x41 → Answers (.dbgPoke d) s (b.ack d m 0x102 [])) ∧ (code = 0x42 → Answers (.dbgTrace d) s (b.ack d m 0x102 []))) ∧
    (s.b.lockedPart d = false →
      (code = 0x40 → msgReserved m 9 → 1 ≤ msgArg m 8 1 → msgArg m 8 1 ≤ 48 →
        ∃ t l, exec (.dbgPeek d) s = .next t ∧ l.length = msgArg m 8 1 ∧
          (t.b.core d).mbox.acks = (s.b.core d).mbox.acks ++ [{ token := msgToken m, msg := msgCode m, code := 0, resp := l }]) ∧
      (code = 0x41 → leAt m 4 4 = 0 → (msgArgs m 9 7).all (fun x => x == 0#8) → 1 ≤ msgArg m 8 1 → msgArg m 8 1 ≤ 40 →
        (msgArgs m (16 + msgArg m 8 1) (40 - msgArg m 8 1)).all (fun x => x == 0#8) → Answers (.dbgPoke d) s (b.ack d m 0 [])) ∧
      (code = 0x42 → msgReserved m 1 → msgArg m 0 1 ≤ 1 →
        Answers (.dbgTrace d) s ((b.modMbox d (fun x => { x with trace := msgArg m 0 1 == 1 })).ack d m 0 [])))) ∧
  (∀ (s : State) (d : Dev) (m : List Byte), s.b.clocked d →
    (s.b.core d).mbox.taken.find? (fun x => !msgKnown d (msgCode x)) = some m → s.b.stateRefuses d (msgCode m) = none →
    Answers (.unknownMsg d) s ((s.b.modMbox d (fun x => { x with taken := x.taken.erase m })).ack d m 0x100 [])) ∧
  (∀ (s : State) (d : Dev) (m : List Byte) (r : FwResult), s.b.inRun d → (s.b.core d).mbox.fwJob = some m →
    let box := (s.b.core d).mbox
    let a : Ack := { token := msgToken m, msg := msgCode m, code := Blk.fwCode r, resp := [] }
    ∃ t, exec (.fwLoadDone d r) s = .next t ∧ (t.b.core d).mbox = { box with fwJob := none, acks := box.acks ++ [a] })

/-- LINKS COMPLETE. At a port that is UP: an accepted DATA flit is taken (R47), a CTRL flit with a good check gives its acknowledgement
and credits, an expired replay timer sends every held flit again, and FLIT_SEND sends one flit. -/
def Obligations.LinkCommandsComplete : Prop :=
  (∀ (s : State) (d : Dev) (port : Nat) (f : Flit), hasPort d port → s.b.portUp d port → Flit.fcrcOk f →
    Flit.ftype f = 0 → Flit.lseq f = ((s.b.port d port).rxLast + 1) % 4096 →
    Answers (.dataFlitReceive d port f) s
      (((s.b.modPort d port (fun p => { p with rxLast := Flit.lseq f, owedAck := true })).takeControl d port f).forBelow 15
        (fun b i => b.takeSlot d port (Flit.slot f i) (bitOf (Flit.start f) i)))) ∧
  (∀ (s : State) (d : Dev) (port : Nat) (f : Flit), hasPort d port → s.b.portUp d port → Flit.fcrcOk f →
    Flit.ftype f = 1 → Answers (.ctrlFlitReceive d port f) s (s.b.takeControl d port f)) ∧
  (∀ (s : State) (d : Dev) (port : Nat), hasPort d port → s.b.portUp d port → (s.b.port d port).replay ≠ [] →
    (s.b.port d port).timerAt + 2000 ≤ s.b.now d →
    Answers (.replayTimerExpiry d port) s (s.b.resendAll d port)) ∧
  (∀ (s : State) (d : Dev) (port : Nat), hasPort d port → s.b.portUp d port →
    Answers (.flitSend d port) s (s.b.sendFlit d port))

/-- PORT EVENTS COMPLETE. What wavelengths, lasers, markers and training do while the part's clocks run, each under the conditions its
rule names (R49, R404-R413, R417-R421). -/
def Obligations.PortEventsComplete : Prop :=
  (∀ (s : State) (d : Dev) (port : Nat) (h : HeldFlit) (r : List HeldFlit), hasPort d port → s.b.inRun d →
    s.b.portUp d port → (s.b.port d port).replay = h :: r → h.at_ + 10000 ≤ s.b.now d →
    Answers (.replayBudgetExpiry d port) s (s.b.recover d port 4 true)) ∧
  (∀ (s : State) (d : Dev) (port wl : Nat), hasPort d port → hasWl wl → s.b.inRun d →
    Answers (.uncorrectableCodeword d port wl) s ((s.b.count d (Blk.wlOff d port wl + 8) 31 0 1).wlBucket d port wl 0)) ∧
  (∀ (s : State) (d : Dev) (port wl c r : Nat), hasPort d port → hasWl wl → s.b.inRun d →
    Answers (.serWindowEnd d port wl c r) s
      (let b := (s.b.count d (Blk.wlOff d port wl + 8) 63 32 c).measurePower d port wl
       if r < c * 8192 then b.wlBucket d port wl 1 else b)) ∧
  (∀ (s : State) (d : Dev) (k : BucketId), hasBucket d k → s.b.inRun d → s.b.drainEnd d k ≤ s.b.now d →
    ∃ t, exec (.bucketDrain d k) s = .next t ∧ t.b.bucketLevel d k = s.b.bucketLevel d k - 1) ∧
  (∀ (s : State) (d : Dev) (port wl : Nat), hasPort d port → hasWl wl → s.b.inRun d →
    s.b.wlRole d port wl = 1 → Answers (.wavelengthLoss d port wl) s ((s.b.lightOff d port wl).retireWl d port wl 0xFF)) ∧
  (∀ (s : State) (d : Dev) (port : Nat), hasPort d port → s.b.portUp d port →
    Answers (.lockLost d port) s (s.b.recover d port 5 true)) ∧
  (∀ (s : State) (d : Dev) (port : Nat), hasPort d port → s.b.portUp d port →
    Answers (.lightLost d port) s ((s.b.forBelow 9 (fun b w => b.lightOff d port w)).recover d port 1 false)) ∧
  (∀ (s : State) (d : Dev) (port wl mk : Nat), MarkerNew s.b d port wl 0x04 mk → s.b.portUp d port →
    ∃ t, exec (.subst d port wl mk) s = .next t ∧ (t.b.port d port).substPeer = some (bits mk 47 44, bits mk 43 32) ∧
      t.b.out = .marker d port 0x05 (bits mk 47 32) (s.b.txMarker d port) :: s.b.out) ∧
  (∀ (s : State) (d : Dev) (port wl mk : Nat) (x : SubstOut), MarkerNew s.b d port wl 0x05 mk → (s.b.port d port).subst = some x →
    x.wl = bits mk 47 44 → x.amSeq % 4096 = bits mk 43 32 →
    ∃ t, exec (.substAck d port wl mk) s = .next t ∧ (t.b.port d port).subst = some { x with acked := true }) ∧
  (∀ (s : State) (d : Dev) (port : Nat), hasPort d port → s.b.portUp d port →
    Answers (.substSwitchover d port) s (s.b.switchover d port)) ∧
  (∀ (s : State) (d : Dev) (port : Nat) (x : SubstOut), hasPort d port → s.b.inRun d →
    (s.b.port d port).subst = some x → x.acked = false → x.at_ + 1000000 ≤ s.b.now d →
    Answers (.substTimeout d port) s (s.b.retireByRecovery d port x.wl x.cause)) ∧
  (∀ (s : State) (d : Dev) (port wl mk : Nat), MarkerNew s.b d port wl 0x01 mk → s.b.training d port →
    (s.b.port d port).gotMap = false →
    ∃ t, exec (.paramNode d port wl mk) s = .next t ∧ t.b.fld d (offPort d port 0) 51 50 = bits mk 47 46 ∧
      t.b.fld d (offPort d port 0) 47 34 = bits mk 45 32 ∧ (bits mk 47 46 = s.b.ownPlane d port → (t.b.port d port).gotNode) ∧
      (bits mk 47 46 ≠ s.b.ownPlane d port → t.b.fld d (offPort d port 0) 59 56 = 3 ∧ (t.b.port d port).planeBad)) ∧
  (∀ (s : State) (d : Dev) (port wl mk : Nat), MarkerNew s.b d port wl 0x02 mk → s.b.training d port →
    (s.b.port d port).gotMap = false →
    ∃ t, exec (.paramPort d port wl mk) s = .next t ∧ t.b.fld d (offPort d port 0) 49 49 = bits mk 47 47 ∧
      t.b.fld d (offPort d port 0) 33 27 = bits mk 46 40 ∧ (t.b.port d port).gotPort) ∧
  (∀ (s : State) (d : Dev) (port wl mk q : Nat), MarkerNew s.b d port wl 0x03 mk → s.b.training d port →
    (s.b.port d port).gotNode = false →
    ∃ t arg, exec (.rxMap d port wl mk q) s = .next t ∧ (t.b.port d port).gotMap ∧ (t.b.port d port).partnerMap = bits mk 40 32 ∧
      (t.b.port d port).qualified = q ∧ t.b.out = .marker d port 0x03 arg (s.b.txMarker d port) :: s.b.out) ∧
  (∀ (s : State) (d : Dev) (port : Nat), hasPort d port → s.b.inRun d → s.b.training d port →
    (s.b.port d port).txStripes ≠ [] → s.b.lit d port →
    ∃ t, exec (.linkUp d port) s = .next t ∧ (t.b.port d port).rxLast = 0 ∧ (t.b.port d port).txNext = 1 ∧
      (t.b.port d port).replay = []) ∧
  (∀ (s : State) (d : Dev) (port : Nat), hasPort d port → s.b.inRun d → s.b.training d port →
    (s.b.port d port).attemptAt + 20000000 ≤ s.b.now d →
    ∃ t, exec (.trainingTimeout d port) s = .next t ∧ (t.b.port d port).waiting ∧ (t.b.port d port).attemptAt = s.b.now d) ∧
  (∀ (s : State) (d : Dev) (port : Nat), hasPort d port → s.b.inRun d → (s.b.port d port).waiting →
    (s.b.port d port).attemptAt + 100000000 ≤ s.b.now d →
    Answers (.trainingWaitEnd d port) s (s.b.beginAttempt d port)) ∧
  (∀ (s : State) (d : Dev) (port wl : Nat), hasPort d port → hasWl wl → s.b.inRun d →
    Answers (.lightDetected d port wl) s (s.b.lightOn d port wl)) ∧
  (∀ (s : State) (d : Dev) (k pwr : Nat), hasLsup d k → s.b.inRun d →
    Answers (.laserFailover d k pwr) s (s.b.failover d k pwr)) ∧
  (∀ (s : State) (d : Dev) (k p q : Nat), hasLsup d k → s.b.inRun d →
    Answers (.laserInputLost d k p q) s (s.b.inputLost d k p q)) ∧
  (∀ (s : State) (d : Dev) (k : Nat) (red : Bool) (pwr : Nat), hasLsup d k → s.b.inRun d →
    Answers (.laserLightReturn d k red pwr) s (s.b.lightBack d k red pwr))

/-- PORT COMMANDS OF THE HOST COMPLETE (R407, R415): RETRAIN of a port that is UP leads to RECOVERY or, where its bucket fires, to
RETIRED; RETIRE to RETIRED; UNRETIRE of a retired port clears the retirement and brings the link up; ENABLE brings a disabled port
up and takes an UP port down; USE_PRIMARY returns to the primary fibre while it is above the loss level. -/
def Obligations.HostPortCommandsComplete : Prop :=
  ∀ (s : State) (d : Dev), Served s.b d →
    (∀ port, hasPort d port → s.b.lstate d port = 2 →
      ∃ t, exec (.retrain d port) s = .next t ∧ (t.b.lstate d port = 3 ∨ t.b.lstate d port = 4)) ∧
    (∀ port, hasPort d port → s.b.lstate d port ≠ 4 → s.b.lstate d port ≠ 5 →
      ∃ t, exec (.portRetire d port) s = .next t ∧ t.b.lstate d port = 4 ∧ t.b.fld d (offPort d port 0) 59 56 = 7 ∧ t.b.live d port = false) ∧
    (∀ port, hasPort d port → s.b.lstate d port = 4 → s.b.enabled d port → s.b.lit d port →
      ∃ t, exec (.unretire d port) s = .next t ∧ t.b.lstate d port = 1 ∧ (d = .sw → (t.b.port d port).loopAt = none)) ∧
    (∀ port, hasPort d port → s.b.lstate d port = 0 →
      ∃ t, exec (.portEnable d port true) s = .next t ∧ t.b.lstate d port = 1 ∧ t.b.enabled d port) ∧
    (∀ port, hasPort d port → s.b.lstate d port = 2 →
      ∃ t, exec (.portEnable d port false) s = .next t ∧ t.b.lstate d port = 0 ∧ t.b.enabled d port = false) ∧
    (∀ k, hasLsup d k → s.b.flag d (offLsup d k) 61 →
      ∃ t, exec (.usePrimary d k) s = .next t ∧ t.b.fld d (offLsup d k) 63 62 = 1)

/-- HOME REQUESTS COMPLETE, and R93's first sentence for those that pass R84: a sound new request that no withheld acceptance, window,
key generation or form speaks against is carried out, and the home then holds its entry. -/
def Obligations.HomeRequestsComplete : Prop :=
  ∀ (s : State) (d : Dev) (port : Nat) (p : Packet) (ecc : Ecc), HomeCarries s d port p (s.b.windowOk d p) (Packet.formOk p) →
    let entered := fun (i : Instr) => ∃ t e, exec i s = .next t ∧ t.b.findDs d (Packet.stream p) (Packet.seq p) = some e ∧
      e.op = Packet.opcode p
    (Packet.opcode p = 0x1 → entered (.read d port p ecc)) ∧
    (Packet.opcode p = 0x2 → entered (.write d port p ecc)) ∧
    (Packet.opcode p = 0x3 → entered (.topcoatWrite d port p ecc)) ∧
    (Packet.opcode p = 0x4 → entered (.fetchAdd d port p ecc)) ∧
    (Packet.opcode p = 0x5 → entered (.swap d port p ecc)) ∧
    (Packet.opcode p = 0x6 → entered (.compareSwap d port p ecc)) ∧
    (Packet.opcode p = 0x7 → entered (.fetchAnd d port p ecc)) ∧
    (Packet.opcode p = 0x8 → entered (.fetchOr d port p ecc)) ∧
    (Packet.opcode p = 0x9 → entered (.fetchXor d port p ecc)) ∧
    (Packet.opcode p = 0xA → entered (.fetchMin d port p ecc)) ∧
    (Packet.opcode p = 0xB → entered (.fetchMax d port p ecc))

/-- TALLY_INC and the home's timers complete: the credit of R74 and its entry; a held topcoat past its limit ends with
LIFETIME_EXPIRED (R62), an entry of 800 µs ages out (R94), completions held for 1 µs are sent (R54). -/
def Obligations.HomeTimersComplete : Prop :=
  (∀ (s : State) (port : Nat) (p : Packet), HomeCarries s .ep port p
      (s.b.tallyValid (Packet.incTally p) && s.b.ctxPart (s.b.tallyOwner (Packet.incTally p)) == Packet.part p) (Packet.incOk p) →
    Packet.opcode p = 0xC →
    ∃ t e, exec (.tallyInc .ep port p) s = .next t ∧ t.b.findDs .ep (Packet.stream p) (Packet.seq p) = some e ∧ e.status = some 0 ∧
      (s.b.ep.home.held = [] → t.b.tallyCount (Packet.incTally p) = (s.b.tallyCount (Packet.incTally p) + Packet.increment p) % 2 ^ 32)) ∧
  (∀ (s : State) (d : Dev) (h : HeldTop), (s.b.home d).held = [h] → h.limit ≤ s.b.time64 d →
    ∃ t e, exec (.topcoatExpiry d h.key h.seq) s = .next t ∧ (t.b.home d).held = [] ∧
      t.b.findDs d (Packet.stream h.pkt) (Packet.seq h.pkt) = some e ∧ e.status = some 7) ∧
  (∀ (s : State) (d : Dev) (k : StreamKey) (seq : Nat) (e : DsEnt), s.b.findDs d k seq = some e → e.at_ + 800000 ≤ s.b.now d →
    e.status ≠ none → (s.b.home d).waiting = [] →
    ∃ t, exec (.dsEntryExpiry d k seq) s = .next t ∧ t.b.findDs d k seq = none ∧ (t.b.home d).withheld = false ∧
      ∀ k' seq', (k', seq') ≠ (k, seq) → t.b.findDs d k' seq' = s.b.findDs d k' seq') ∧
  (∀ (s : State) (d : Dev), ∃ t, exec (.completionFlush d) s = .next t ∧
      (t.b.home d).join = (s.b.home d).join.filter (fun x => !(decide (x.since + 1000 ≤ s.b.now d))))

/-- COHERENCE COMPLETES (R115-R125): INVALIDATE drops the lines, INV_ACK clears the presence bits and ends its INVALIDATE, DROP_ALL
clears a member's bits, a local store is applied, resends and timeouts act when due, and the registers of the island, the windows and
the node table take their writes. -/
def Obligations.CoherenceCompletes : Prop :=
  (∀ (s : State) (x : Snoop), s.b.ep.snoops = [x] → x.out → x.sentAt + 10000 ≤ s.b.now .ep →
    Answers (.invalidateResend x.id) s (s.b.sendSnoop x)) ∧
  (∀ (s : State) (x : PendAns), s.b.ep.home.pend = [x] → x.snoops ≠ [] → x.expire ≤ s.b.time64 .ep → x.isLocal = false → x.own = none →
    s.b.ep.home.waiting = [] →
    ∃ t e, exec (.invalidationTimeout x.id) s = .next t ∧ t.b.ep.home.pend = [] ∧
      t.b.findDs .ep (Packet.stream x.pkt) (Packet.seq x.pkt) = some e ∧ e.status = some 0xC) ∧
  (∀ (s : State) (port : Nat) (p : Packet), hasPort .ep port → s.b.serving .ep → Packet.opcode p = 0x19 →
    EpSound s.b p → Answers (.invalidate port p) s
      (((s.b.owe .ep port (Packet.tc p) (Packet.slots p)).fcDropBytes (Packet.src p) (Packet.cohOff p) (64 * Packet.cohLines p)).epSend port
        (s.b.cohPacket 0x1A (Packet.src p) (Packet.part p) (Packet.plane p) (Packet.cohOff p) 3 (Packet.cohLines p - 1) (Packet.snoopId p) false))) ∧
  (∀ (s : State) (port : Nat) (p : Packet) (x : Snoop), hasPort .ep port → s.b.serving .ep → Packet.opcode p = 0x1A →
    EpSound s.b p → s.b.ep.snoops = [x] → x.id = Packet.snoopId p → x.node = Packet.src p → 64 * x.line = Packet.cohOff p →
    x.lines = Packet.cohLines p → s.b.ep.home.pend = [] → s.b.ep.home.waiting = [] →
    ∃ t, exec (.invAck port p) s = .next t ∧ t.b.ep.snoops = [] ∧ (∀ l, x.line ≤ l → l < x.line + x.lines → bitOf (t.b.dirBits l) x.member = false)) ∧
  (∀ (s : State) (port m : Nat) (p : Packet), hasPort .ep port → s.b.serving .ep → Packet.opcode p = 0x18 →
    EpSound s.b p → s.b.memberOf (Packet.src p) = some m → Packet.allPart p →
    ∃ t, exec (.dropAll port p) s = .next t ∧ ∀ l, bitOf (t.b.dirBits l) m = false) ∧
  (∀ (s : State) (off : Nat) (bytes : List Byte), s.b.serving .ep → s.b.ep.snoops.length < 4096 →
    ∃ t, exec (.localStore off bytes) s = .next t ∧
      ∀ a, t.mem.get a 0#8 = if off ≤ a ∧ a < off + bytes.length then bytes.getD (a - off) 0#8 else s.mem.get a 0#8) ∧
  (∀ (s : State) (x : PendAns) (off len : Nat) (ok : Bool), s.b.ep.home.pend = [x] → x.ucie → x.isLocal = false → x.own = none →
    x.hop = .read off len → s.b.ep.badMem = [] → s.b.ep.home.held = [] → s.b.ep.home.waiting = [] →
    ∃ t e, exec (.homeAccessAnswer x.id ok) s = .next t ∧ t.b.ep.home.pend = [] ∧
      t.b.findDs .ep (Packet.stream x.pkt) (Packet.seq x.pkt) = some e ∧ e.status = some (if ok then 0 else 0xC) ∧
      e.old = (if ok then (upto len).map (fun j => s.mem.get (off + j) 0#8) else [])) ∧
  (∀ (s : State) (n v : Nat), hasIsland n → Served s.b .ep → s.b.ep.home.waiting = [] → s.b.islandValid n = false → bitOf v 63 →
    bits v 13 0 ≠ 16383 →
    bits v 13 0 ≠ s.b.ep.node → (∀ m, m < 3 → m ≠ n → s.b.islandValid m → s.b.islandNode m ≠ bits v 13 0) →
    ∃ t, exec (.islandWrite n v) s = .next t ∧ t.b.islandValid n ∧ t.b.islandNode n = bits v 13 0) ∧
  (∀ (s : State) (n v : Nat), hasWindow n → Served s.b .ep → s.b.hwinValid n = false → bitOf v 63 → bits v 55 44 ≠ 0 →
    bits v 55 44 ≠ 0xFFF → s.b.fld .ep (offHwinBase n) 43 21 ≤ bits v 43 21 →
    (∀ m, m < 64 → m ≠ n → s.b.hwinValid m →
      bits v 43 21 < s.b.fld .ep (offHwinBase m) 43 21 ∨ s.b.fld .ep (offHwinCtl m) 43 21 < s.b.fld .ep (offHwinBase n) 43 21) →
    ∃ t, exec (.hwinCtlWrite n v) s = .next t ∧ t.b.hwinValid n ∧ t.b.fld .ep (offHwinCtl n) 55 44 = bits v 55 44 ∧
      t.b.fld .ep (offHwinCtl n) 43 21 = bits v 43 21) ∧
  (∀ (s : State) (n v : Nat), hasNode n → Served s.b .ep → n ≠ 16383 →
    ∃ t, exec (.nodeEntryWrite n v) s = .next t ∧ t.b.nodeValid n = bitOf v 31 ∧ t.b.nodeLevel n = (if bits v 30 29 = 3 then s.b.nodeLevel n else bits v 30 29) ∧
      t.b.nodeRoute n = bits v 3 0)

/-- DIRECT ACCESSES AND ORDERING REQUESTS COMPLETE (R66, R105, R106, R108, R109): one of a supported form in a RESIDENT context becomes
a request that waits to be issued; a release waits with what it covers, and ends when nothing it covers is left; an acquire
invalidates its range and answers. -/
def Obligations.DirectAccessesComplete : Prop :=
  (∀ (s : State) (n eng va size : Nat), hasCtx n → s.b.serving .ep → s.b.ctxState n = 2 → directSize size →
    va % size = 0 → s.b.ep.fc = [] →
    ∃ t r, exec (.directLoad n eng va size false) s = .next t ∧ t.b.ep.reqs = s.b.ep.reqs ++ [r] ∧ r.ctx = n ∧ r.op = 1 ∧ r.tc = 1 ∧
      r.va = some va ∧ r.rdBytes = size ∧ r.sent = false ∧ t.b.out = s.b.out) ∧
  (∀ (s : State) (n eng va : Nat) (bytes : List Byte), hasCtx n → s.b.serving .ep → s.b.ctxState n = 2 →
    directSize bytes.length → va % bytes.length = 0 →
    ∃ t r, exec (.directStore n eng va bytes) s = .next t ∧ t.b.ep.reqs.map Req.id = s.b.ep.reqs.map Req.id ++ [r.id] ∧ r ∈ t.b.ep.reqs ∧ r.ctx = n ∧ r.op = 2 ∧ r.tc = 1 ∧
      r.va = some va ∧ r.payload = bytes ∧ r.sent = false ∧ t.b.out = s.b.out) ∧
  (∀ (s : State) (n eng va op q : Nat) (opnd : List Byte), hasCtx n → s.b.serving .ep → s.b.ctxState n = 2 →
    atomicForm op q opnd.length va →
    ∃ t r, exec (.directAtomic n eng va op q opnd) s = .next t ∧ t.b.ep.reqs.map Req.id = s.b.ep.reqs.map Req.id ++ [r.id] ∧ r ∈ t.b.ep.reqs ∧ r.ctx = n ∧ r.op = op ∧ r.tc = 1 ∧
      r.opq = q ∧ r.va = some va ∧ r.payload = opnd ∧ r.sent = false ∧ t.b.out = s.b.out) ∧
  (∀ (s : State) (n eng : Nat) (scope : Scope), hasCtx n → s.b.serving .ep → s.b.ctxState n = 2 → scope ≠ .engine →
    ∃ t x, exec (.release n eng scope) s = .next t ∧ t.b.ep.rels = s.b.ep.rels ++ [x] ∧ x.ctx = n ∧ x.eng = eng ∧ x.flag = none ∧
      x.atomic = none ∧ ∀ r ∈ s.b.ep.reqs, r.ctx = n → (r.why.isProg = false ∨ (r.sent ∧ r.op ≠ 2 ∧ r.op ≠ 3)) → r.id ∈ x.covers) ∧
  (∀ (s : State) (n eng addr : Nat) (scope : Scope) (flag : List Byte), hasCtx n → s.b.serving .ep → s.b.ctxState n = 2 →
    scope ≠ .engine → (flag.length = 4 ∨ flag.length = 8) → addr % flag.length = 0 → addr < 2 ^ 58 →
    ∃ t x, exec (.releaseStore n eng scope addr flag) s = .next t ∧ t.b.ep.rels = s.b.ep.rels ++ [x] ∧ x.flag = some (addr, flag)) ∧
  (∀ (s : State) (n eng addr op q : Nat) (scope : Scope) (opnd : List Byte), hasCtx n → s.b.serving .ep →
    s.b.ctxState n = 2 → scope ≠ .engine → atomicForm op q opnd.length addr → addr < 2 ^ 58 →
    ∃ t x, exec (.releaseAtomic n eng scope addr op q opnd) s = .next t ∧ t.b.ep.rels = s.b.ep.rels ++ [x] ∧
      x.atomic = some (addr, op, q, opnd)) ∧
  (∀ (s : State) (x : Rel), s.b.ep.rels = [x] → x.covers = [] → x.flag = none → x.atomic = none → s.b.ctxState x.ctx = 2 →
    x.fail = none →
    ∃ t, exec (.releaseComplete x.id) s = .next t ∧ t.b.ep.rels = [] ∧ t.b.out = .ucie (.answer x.ctx x.eng 0 []) :: s.b.out) ∧
  (∀ (s : State) (x : Rel) (addr : Nat) (bytes : List Byte), s.b.ep.rels = [x] → x.covers = [] → x.flag = some (addr, bytes) →
    x.acq = none → s.b.ctxState x.ctx = 2 → x.fail = none →
    ∃ t r, exec (.releaseComplete x.id) s = .next t ∧ t.b.ep.rels = [] ∧ t.b.ep.reqs = s.b.ep.reqs ++ [r] ∧ r.op = 2 ∧ r.tc = 1 ∧
      r.node = addrNode addr ∧ r.off = addrOff addr ∧ r.payload = bytes) ∧
  (∀ (s : State) (n eng addr size : Nat) (scope : Scope) (range : AcqRange), hasCtx n → s.b.serving .ep →
    s.b.ctxState n = 2 → scope ≠ .engine → (size = 4 ∨ size = 8) → addr % size = 0 → addr < 2 ^ 58 → rangeOk range →
    ∃ t r, exec (.acquireLoad n eng scope addr size range) s = .next t ∧ t.b.ep.reqs = s.b.ep.reqs ++ [r] ∧ r.op = 1 ∧ r.tc = 1 ∧
      r.rdBytes = size ∧ r.node = addrNode addr ∧ r.off = addrOff addr) ∧
  (∀ (s : State) (n eng : Nat) (scope : Scope) (range : AcqRange), hasCtx n → s.b.serving .ep → s.b.ctxState n = 2 →
    scope ≠ .engine → rangeOk range → s.b.relsOf n eng = [] →
    ∃ t, exec (.acquire n eng scope range) s = .next t ∧ Emission.ucie (.answer n eng 0 []) ∈ t.b.out)

/-- REQUESTS IN FLIGHT COMPLETE (R27, R54, R55, R59, R60, R91, R280): issue of a request whose address is at hand, the due retry, its
sending and its abandonment, the expiry at 4L, a tag's return, responses and completions that find their request, the window's
growth. -/
def Obligations.RequestsInFlightComplete : Prop :=
  (∀ (s : State) (r : Req) (t : Nat) (ecc : Ecc) (bad : Bool), hasTag t → s.b.serving .ep → s.b.ep.reqs = [r] → r.sent = false →
    s.b.mayIssue r → r.feeds = [] → s.b.ep.rels = [] → r.va = none → r.op = 2 → r.payload.length ≤ 32 → r.node ≠ s.b.ep.node →
    (match r.why with | .relStore _ => true | _ => false) = true →
    let r' := { r with epoch := s.b.ctxEpoch r.ctx }
    let o := (s.b.updReq r.id (fun _ => r')).sendOne r' t
    s.b.preStatus r' false = 0 → o.1 → Answers (.requestIssue r.id t ecc bad) s o.2) ∧
  (∀ (s : State) (r : Req), s.b.ep.reqs = [r] → r.mayRetry s.b.ep.node → r.first + 2 * lifetime r.life ≤ s.b.now .ep →
    ∃ t, exec (.retryDue r.id) s = .next t ∧ t.b.ep.reqs = [{ r with retry := 1 }]) ∧
  (∀ (s : State) (r : Req) (p : Nat), s.b.serving .ep → s.b.ep.reqs = [r] → r.retry = 1 → r.counted = false →
    s.b.now .ep < r.first + 3 * lifetime r.life → (s.b.pidKey .ep (s.b.ctxPart r.ctx)).cur.isSome → r.op = 1 → r.long = false →
    without (s.b.usablePlanes r.ctx r.node) r.plane ≠ [] →
    s.b.choosePlane r.ctx (without (s.b.usablePlanes r.ctx r.node) r.plane) r.tc 4 = some p →
    ∃ t, exec (.retrySend r.id) s = .next t ∧
      t.b.ep.reqs = [{ r with retry := 2, plane := p, keyGen := (s.b.pidKey .ep (s.b.ctxPart r.ctx)).g }]) ∧
  (∀ (s : State) (r : Req), s.b.ep.reqs = [r] → r.retry = 1 → r.first + 3 * lifetime r.life ≤ s.b.now .ep →
    ∃ t, exec (.retryAbandon r.id) s = .next t ∧ t.b.ep.reqs = [{ r with retry := 3 }]) ∧
  (∀ (s : State) (r : Req) (e : Nat), s.b.ep.reqs = [r] → r.sent → r.first + 4 * lifetime r.life ≤ s.b.now .ep → r.why = .atomic e →
    ∃ t, exec (.outcomeExpiry r.id) s = .next t ∧ t.b.ep.reqs = [] ∧
      t.b.out = .ucie (.answer r.ctx e (if r.checkBad then 0xA else 7) []) :: s.b.out) ∧
  (∀ (s : State) (t a : Nat), hasTag t → (s.b.tag t).freeAt = some a → (s.b.tag t).orphan = false → a ≤ s.b.now .ep →
    ∃ u, exec (.tagReleaseTimer t) s = .next u ∧ (u.b.tag t).busy = false ∧ (u.b.tag t).freeAt = none ∧
      (u.b.tag t).gen = ((s.b.tag t).gen + 1) % 8) ∧
  (∀ (s : State) (port eng skip size : Nat) (p : Packet) (r : Req), hasPort .ep port → s.b.serving .ep → Packet.opcode p = 0x10 →
    EpSound s.b p → Packet.tailMarked p = false → Packet.checkOk p → Packet.status p = 0 → s.b.ep.reqs = [r] → r.sent → r.op = 1 →
    r.tag = some (Packet.tag p) → r.tagGen = Packet.tagGen p → r.why = .load eng skip size false →
    ∃ t, exec (.readResp port p) s = .next t ∧ t.b.ep.reqs = [] ∧
      t.b.out = .ucie (.answer r.ctx eng 0 (slice (slice (Packet.wire p) 0 r.rdBytes) skip size)) :: s.b.out) ∧
  (∀ (s : State) (port eng : Nat) (p : Packet) (r : Req), hasPort .ep port → s.b.serving .ep → Packet.opcode p = 0x12 →
    EpSound s.b p → Packet.tailMarked p = false → Packet.checkOk p → Packet.status p = 0 → s.b.ep.reqs = [r] → r.sent → r.op = 4 →
    r.tag = some (Packet.tag p) → r.tagGen = Packet.tagGen p → r.why = .atomic eng →
    ∃ t, exec (.atomicResp port p) s = .next t ∧ t.b.ep.reqs = [] ∧
      t.b.out = .ucie (.answer r.ctx eng 0 (slice (Packet.wire p) 0 (Packet.payloadBytes p))) :: s.b.out) ∧
  (∀ (s : State) (port eng : Nat) (p : Packet) (r : Req), hasPort .ep port → s.b.serving .ep → Packet.opcode p = 0x11 →
    EpSound s.b p → Packet.cplCount p = 1 → s.b.ep.reqs = [r] → r.sent → r.op = 2 → r.seq = Packet.seq p → Packet.seq p < 65536 →
    s.b.reqStream r = s.b.cplStream p → r.why = .relStore eng →
    ∃ t, exec (.completion port p) s = .next t ∧ t.b.ep.reqs = [] ∧
      t.b.fld .ep (offCtxErr r.ctx) 31 0 = (s.b.fld .ep (offCtxErr r.ctx) 31 0 + 1) % 2 ^ 32) ∧
  (∀ (s : State) (k : StreamKey) (x : Stream), s.b.ep.streams = [x] → x.key = k → s.b.flag .ep offCcCfg 0 →
    max x.lastInc (x.lastDec - 1) + 100 * s.b.fld .ep offCcCfg 23 16 ≤ s.b.now .ep →
    ∃ t, exec (.cwIncrease k) s = .next t ∧
      t.b.ep.streams = [{ x with cw := min (s.b.fld .ep offCcCfg 63 44) (x.cw + s.b.fld .ep offCcCfg 15 4), lastInc := s.b.now .ep }])

/-- CONTEXT COMMANDS COMPLETE (R131, R133, R136-R138, R162-R165): each in a state that accepts it reaches the state its rule names. -/
def Obligations.ContextCommandsComplete : Prop :=
  (∀ (s : State) (n : Nat) (l : List Byte), hasCtx n → Served s.b .ep → s.b.ctxState n = 0 → s.b.dmaOk .ep →
    s.b.descOk l → (s.b.ctx n).lastEpoch = none → (s.b.ctx n).epochSent = [] →
    ∃ t, exec (.activate n (some l)) s = .next t ∧ t.b.ctxState n = 1 ∧ t.b.ctxEpoch n = 0 ∧ (t.b.ctx n).desc = some (parseDesc l) ∧
      t.b.fld .ep (offProd n) 31 0 = 0 ∧ t.b.fld .ep (offCons n) 31 0 = 0) ∧
  (∀ (s : State) (n e : Nat) (d : CtxDesc), hasCtx n → (s.b.ctx n).newDesc = some d → s.b.nextEpoch n = some e → e < 16 →
    ∃ t, exec (.epochTaken n) s = .next t ∧ t.b.ctxState n = 1 ∧ t.b.ctxEpoch n = e ∧ t.b.flag .ep (offCtxState n) 14 = false) ∧
  (∀ (s : State) (n : Nat), hasCtx n → Served s.b .ep → s.b.ctxState n = 1 → (s.b.ctx n).saved = false →
    (s.b.ctx n).faulted = none → s.b.freeSlots ≠ [] →
    ∃ t, exec (.load n none) s = .next t ∧ t.b.ctxState n = 2 ∧ t.b.fld .ep (offCtxState n) 13 8 ∈ s.b.freeSlots) ∧
  (∀ (s : State) (n : Nat), hasCtx n → Served s.b .ep → (s.b.ctxState n = 2 ∨ s.b.ctxState n = 4) →
    ∃ t, exec (.preempt n) s = .next t ∧ t.b.ctxState n = 3) ∧
  (∀ (s : State) (n : Nat), hasCtx n → Served s.b .ep → (s.b.ctxState n = 2 ∨ s.b.ctxState n = 4 ∨ s.b.ctxState n = 3) →
    ∃ t, exec (.preemptNow n) s = .next t ∧ t.b.ctxState n = 3 ∧ (t.b.ctx n).stop = 2) ∧
  (∀ (s : State) (n : Nat), hasCtx n → s.b.ctxState n = 3 → s.b.atStop n → s.b.dmaOk .ep →
    ∃ t, exec (.preemptStop n) s = .next t ∧ t.b.ctxState n = 1 ∧ (t.b.ctx n).saved ∧ t.b.holdsSlot n = false) ∧
  (∀ (s : State) (n : Nat), hasCtx n → Served s.b .ep → s.b.ctxState n = 4 →
    ∃ t, exec (.resumeRetry n) s = .next t ∧ t.b.ctxState n = 2 ∧ (t.b.ctx n).faulted = none ∧
      (t.b.ctx n).prog.map (fun x => (x.ring, x.qs)) = (s.b.ctx n).prog.map (fun x => (x.ring, x.qs))) ∧
  (∀ (s : State) (n : Nat) (d : ProgDesc) (rest : List ProgDesc) (f : FaultRec), hasCtx n → Served s.b .ep → s.b.ctxState n = 4 →
    (s.b.ctx n).faulted = some f → (s.b.ctx n).prog = d :: rest → d.ring = f.ring → d.begun = false →
    ∃ t, exec (.resumeSkip n) s = .next t ∧ t.b.ctxState n = 2 ∧ (t.b.ctx n).faulted = none ∧ (t.b.ctx n).prog = rest) ∧
  (∀ (s : State) (n : Nat), hasCtx n → Served s.b .ep → s.b.abortable n → s.b.ep.reqs = [] → s.b.ep.rels = [] →
    s.b.ep.colls = [] → (s.b.ctx n).heldDirect = [] → (s.b.ctx n).prog = [] →
    ∃ t, exec (.ctxAbort n) s = .next t ∧ t.b.ctxState n = 6) ∧
  (∀ (s : State) (n : Nat), hasCtx n → s.b.ctxState n = 6 → s.b.dmaOk .ep →
    ∃ t, exec (.ctxAbortComplete n true) s = .next t ∧ t.b.ctxState n = 7 ∧ (t.b.ctx n).saved ∧
      ∀ l ∈ t.b.ep.fc, l.part ≠ s.b.ctxPart n) ∧
  (∀ (s : State) (n k : Nat) (x : TagEnt), hasCtx n → s.b.ep.tags = [(k, x)] → x.orphan → x.ctx = n → x.freeAt = some 0 →
    ∃ t, exec (.tagQuarantineEnd n) s = .next t ∧ (t.b.tag k).orphan = false ∧ (t.b.tag k).gen = (x.gen + 1) % 8) ∧
  (∀ (s : State) (n : Nat), hasCtx n → Served s.b .ep → s.b.ctxState n = 7 →
    ∃ t, exec (.contextRelease n) s = .next t ∧ t.b.ctxState n = 0 ∧ (t.b.ctx n).desc = none ∧ ∀ x ∈ t.b.ep.streams, x.key.ctx ≠ n) ∧
  (∀ (s : State) (n e : Nat), hasCtx n → s.b.flag .ep (offCtxState n) 15 → s.b.ep.reqs = [] →
    (∀ x ∈ s.b.ep.streams, x.key.ctx = n → x.fails = []) → s.b.nextEpoch n = some e → e < 16 →
    ∃ t, exec (.epochRoll n) s = .next t ∧ t.b.ctxEpoch n = e ∧ t.b.flag .ep (offCtxState n) 15 = false ∧
      ∀ x ∈ t.b.ep.streams, x.key.ctx ≠ n)

/-- PROGRAMS COMPLETE (R141, R142, R144, R148): the fetch of a descriptor, the engine's turn, the beginning of each descriptor type and
the end of a WAIT. -/
def Obligations.ProgramsComplete : Prop :=
  (∀ (s : State) (n : Nat) (ecc : Ecc) (d : CtxDesc), hasCtx n → s.b.serving .ep → (s.b.ctx n).desc = some d →
    s.b.ctxState n = 2 → d.engineMask ≠ 0 → (s.b.ctx n).prog = [] → s.b.consOf n ≠ s.b.prodOf n → ecc.ue = [] → s.b.ep.badMem = [] →
    s.b.ringOk d →
    ∃ t x, exec (.descriptorFetch n ecc) s = .next t ∧ (t.b.ctx n).prog = [x] ∧ x.ring = s.b.consOf n ∧ x.begun = false ∧
      x.qs = (upto 8).map (fun k => leAt (s.memRead (4096 * d.ringOff + 64 * (s.b.consOf n % d.ringSlots)) 64) (8 * k) 8) ∧
      t.b.consOf n = (s.b.consOf n + 1) % 2 ^ 32 ∧ t.mem = s.mem) ∧
  (∀ (s : State) (e n : Nat), hasCopyEngine e → hasCtx n → s.b.serving .ep → s.b.nextCtx e = some n →
    s.b.flag .ep (offCe e) 63 = false →
    ∃ t, exec (.engineSwitch e n) s = .next t ∧ (t.b.ctx n).engine = some e ∧ t.b.flag .ep (offCe e) 63 ∧
      t.b.fld .ep (offCe e) 62 53 = n) ∧
  (∀ (s : State) (n : Nat) (d : ProgDesc) (rest : List ProgDesc), HeadReady s n d rest → d.type = 1 → Blk.copyOk d →
    s.b.tallyOk n d →
    ∃ t, exec (.copy n) s = .next t ∧ (t.b.ctx n).prog = { d with begun := true, left := (cutWrites d.dst d.length).length, bytes := 0 } :: rest) ∧
  (∀ (s : State) (n : Nat) (d : ProgDesc) (rest : List ProgDesc), HeadReady s n d rest → d.type = 2 → Blk.storeOk d →
    s.b.tallyOk n d →
    ∃ t, exec (.store n) s = .next t ∧ (t.b.ctx n).prog = { d with begun := true, left := (cutWrites d.dst d.length).length, bytes := 0 } :: rest) ∧
  (∀ (s : State) (n : Nat) (d : ProgDesc) (rest : List ProgDesc), HeadReady s n d rest → d.type = 3 → bits (d.q 0) 46 32 = 0 → d.length = 0 →
    d.q 1 = 0 → d.dst < 2 ^ 57 → d.dst % 4 = 0 → d.q 3 < 2 ^ 32 → Blk.zeroFrom d 4 → s.b.tallyOk n d →
    ∃ t r, exec (.topcoat n) s = .next t ∧ t.b.ep.reqs = s.b.ep.reqs ++ [r] ∧ r.op = 3 ∧ r.tc = 1 ∧ r.va = some d.dst ∧
      r.payload = leBytes 4 (d.q 3) ∧ r.ctx = n) ∧
  (∀ (s : State) (n w : Nat) (d : ProgDesc) (rest : List ProgDesc), HeadReady s n d rest → d.type = 5 → d.cplEn = false →
    bits (d.q 0) 46 32 = 0 → d.q 1 = 0 → d.q 2 = 0 → d.q 3 = w → w < 4096 → Blk.zeroFrom d 4 → s.b.owns n w →
    ∃ t, exec (.wait n) s = .next t ∧
      (if Blk.reached (s.b.tallyCount w) d.length then (t.b.ctx n).prog = rest
       else (t.b.ctx n).prog = { d with begun := true, left := 0, bytes := 0 } :: rest ∧ (t.b.ctx n).engine = none)) ∧
  (∀ (s : State) (n : Nat) (d : ProgDesc) (rest : List ProgDesc), hasCtx n → s.b.serving .ep → s.b.ctxState n = 2 →
    (s.b.ctx n).prog = d :: rest → d.begun → d.type = 5 → Blk.reached (s.b.tallyCount (bits (d.q 3) 11 0)) d.length →
    ∃ t, exec (.waitMet n) s = .next t ∧ (t.b.ctx n).prog = rest) ∧
  (∀ (s : State) (n : Nat) (d : ProgDesc) (rest : List ProgDesc), HeadReady s n d rest → d.type = 6 → d.length ≠ 0 → bits (d.q 0) 46 32 = 0 →
    d.q 1 = 0 → d.q 2 = 0 → d.q 3 < 2 ^ 26 → Blk.zeroFrom d 4 → s.b.tallyOk n d →
    ∃ t r, exec (.signal n) s = .next t ∧ t.b.ep.reqs = s.b.ep.reqs ++ [r] ∧ r.op = 0xC ∧ r.tc = 1 ∧ r.node = bits (d.q 3) 13 0 ∧
      r.off = bits (d.q 3) 25 14 ∧ r.payload = leBytes 4 d.length) ∧
  (∀ (s : State) (n : Nat) (d : ProgDesc) (rest : List ProgDesc), HeadReady s n d rest → (d.type = 0 ∨ 7 ≤ d.type) →
    ∃ t, exec (.reservedDescriptor n) s = .next t ∧ (t.b.ctx n).prog = rest ∧ t.b.ep.reqs = s.b.ep.reqs)

/-- TRANSLATION AND ITS FAULTS COMPLETE (R153, R154, R156, R157, R161). -/
def Obligations.TranslationCompletes : Prop :=
  (∀ (s : State) (a : AtsReq) (va size fabric : Nat) (rd wr : Bool), s.b.ep.ats = [a] → a.phase = 0 → a.stale = false →
    (a.rd → rd) → (a.wr → wr) → (s.b.ctx a.ctx).prog = [] → s.b.ep.atc.length < 32768 →
    ∃ t, exec (.atsCompletion a.id (.page va size fabric rd wr)) s = .next t ∧ t.b.ep.ats = [] ∧
      t.b.ep.atc = { pasid := a.pasid, va := va, size := size, fabric := fabric, rd := rd, wr := wr, at_ := s.b.now .ep } :: s.b.ep.atc) ∧
  (∀ (s : State) (a : AtsReq), s.b.ep.ats = [a] → a.phase = 0 → a.stale = false →
    ∃ t, exec (.atsCompletion a.id .none) s = .next t ∧ t.b.out = .pri a.id a.pasid a.va a.rd a.wr :: s.b.out) ∧
  (∀ (s : State) (a : AtsReq), s.b.ep.ats = [a] → a.phase = 1 →
    ∃ t, exec (.prgResponse a.id true) s = .next t ∧ t.b.out = .ats a.id a.pasid a.va :: s.b.out) ∧
  (∀ (s : State) (a : AtsReq) (d : ProgDesc), s.b.ep.ats = [a] → a.at_ + 50000000 ≤ s.b.now .ep → a.req = 0 → a.wr = false →
    (s.b.ctx a.ctx).prog = [d] → d.type = 1 → d.begun → d.ext = [] → d.length ≠ 0 → d.src < 2 ^ 57 → a.va = Blk.pageOf d.src →
    ∃ t, exec (.atsPriTimeout a.id) s = .next t ∧ t.b.ep.ats = [] ∧ (t.b.ctx a.ctx).prog = [{ d with ext :=
      [{ dst := false, va := a.va, size := 4096, fabric := 0, at_ := s.b.ep.nextAts, fault := some (1, 2, s.b.timeNs .ep) }] }]) ∧
  (∀ (s : State) (n : Nat) (c : Ctx) (p : Parked), Served s.b .ep → s.b.ep.ctxs = [(n, c)] → c.parked = some p → p.direct = none →
    p.prev = 2 → s.b.fqSpace → n < 1024 →
    ∃ t, exec .fqResume s = .next t ∧ t.b.ctxState n = 4 ∧ (t.b.ctx n).faulted = some p.record ∧ (t.b.ctx n).parked = none ∧
      t.b.fld .ep offFqPtr 44 32 = (s.b.fld .ep offFqPtr 44 32 + 1) % 8192) ∧
  (∀ (s : State) (itag pasid va size : Nat), s.b.ep.filter.length < 64 →
    ∃ t, exec (.atsInvalidate itag pasid va size) s = .next t ∧
      (∀ x ∈ t.b.ep.atc, x.pasid = pasid → Blk.overlaps x.va x.size va size = false) ∧
      ((∃ x ∈ s.b.extentsOf pasid, x.at_ ≤ s.b.ep.nextAts) →
        { pasid := pasid, va := va, size := size, at_ := s.b.ep.nextAts + 1 } ∈ t.b.ep.filter) ∧
      (∀ x ∈ s.b.ep.atc, x ∉ t.b.ep.atc → x.pasid = pasid)) ∧
  (∀ (s : State) (x : InvReq), s.b.ep.invs = [x] → x.counted = [] →
    ∃ t, exec (.invalidateCompletion x.itag) s = .next t ∧ t.b.ep.invs = [] ∧ t.b.out = .invalidateDone x.itag :: s.b.out)

/-- DATAGRAMS AND THE ABORT NOTICE COMPLETE (R169-R172, R472). -/
def Obligations.DatagramsComplete : Prop :=
  (∀ (s : State) (q v : Nat), hasDgq q → Served s.b .ep → s.b.dgqValid q = false → bitOf v 63 → bits v 55 44 ≠ 0 →
    bits v 55 44 ≠ 0xFFF → bits v 59 56 ≠ 0 → s.b.dgqFld q 8 63 12 ≠ 0 → s.b.dgqFld q 24 63 12 ≠ 0 →
    ∃ t, exec (.dgqCfgWrite q v) s = .next t ∧ t.b.dgqValid q ∧ t.b.dgqPart q = bits v 55 44 ∧
      t.b.dgqFld q 0 59 56 = bits v 59 56) ∧
  (∀ (s : State) (q p : Nat) (e frame : List Byte), hasDgq q → s.b.serving .ep → s.b.dgqValid q →
    s.b.dgqFld q 16 42 32 ≠ s.b.dgqFld q 16 10 0 → s.b.dmaOk .ep → (s.b.pidKey .ep (s.b.dgqPart q)).cur.isSome →
    Blk.sendEntryOk e → s.b.ep.dgPlane.get q 0 = p → p < 4 → p ∈ s.b.dgqPlanes q (leAt e 10 2) →
    ∃ t, exec (.datagramSend q e frame) s = .next t ∧ t.b.dgqFld q 16 42 32 = (s.b.dgqFld q 16 42 32 + 1) % 2048 ∧
      (t.b.port .ep p).tx = (s.b.port .ep p).tx ++
        [{ pkt := s.b.dgPacket q p e frame, sent := 0, have_ := Packet.slots (s.b.dgPacket q p e frame), copy := none, bad := none }]) ∧
  (∀ (s : State) (port buf : Nat) (p : Packet), hasPort .ep port → s.b.serving .ep → Packet.opcode p = 0x38 →
    EpSound s.b p → s.b.dgqValid (Packet.dgq p) → s.b.dgqPart (Packet.dgq p) = Packet.part p →
    s.b.keyOk .ep (Packet.part p) (Packet.keyGen p) → Packet.tailMarked p = false → Packet.checkOk p →
    s.b.dgqFld (Packet.dgq p) 32 42 32 ≠ s.b.dgqFld (Packet.dgq p) 32 10 0 → s.b.dmaOk .ep →
    ∃ t, exec (.datagram port p buf) s = .next t ∧
      t.b.dgqFld (Packet.dgq p) 32 42 32 = (s.b.dgqFld (Packet.dgq p) 32 42 32 + 1) % 2048 ∧
      t.b.flag .ep offDgqPend (Packet.dgq p) ∧
      Emission.dma .ep buf ((Packet.wire p).take (Packet.frameLen p)) ∈ t.b.out) ∧
  (∀ (s : State) (port : Nat) (p : Packet), hasPort .ep port → s.b.serving .ep → Packet.opcode p = 0x32 → EpSound s.b p →
    Packet.hops p = 0 → s.b.flag .ep offAbortCfg 0 = false →
    let node := s.b.fld .ep (offPort .ep port 0) 47 34
    let r : ErrRec := { cls := 0, source := 0x13, event := 0x03, action := 0, inst := port, part := beNat (slice p.payload 0 2) % 4096,
                        detail := node + 65536 * leAt p.payload 2 1 }
    Answers (.abortNotice port p) s (((s.b.owe .ep port (Packet.tc p) (Packet.slots p)).errRecord .ep r).sendVector .ep 2)) ∧
  (∀ (s : State) (pid : Nat), Served s.b .ep → Answers (.epPartAbort pid) s (s.b.abortPart pid 1))

/-- SWITCH CORE COMPLETES (R247, R250, R262, R266-R269, R294, R299, R303, R350). A request of a carried partition whose route names an
egress enters the stages behind ROUTE; an egress without work in hand starts the packet its arbiter chooses; a spilled copy moves to
HBM, its refill to the refill reserve; samples, calendars, the congestion map and the swatch ring act as their rules say. -/
def Obligations.SwitchCoreCompletes : Prop :=
  (∀ (s : State) (port n : Nat) (p : Packet), hasPort .sw port → s.b.serving .sw → s.b.portUp .sw port →
    Packet.whole p → s.b.sw.lanes.get port [] = [] → Packet.hcrcOk p → Packet.linkLocal p = false → Packet.malformed p = false →
    Packet.plane p = s.b.swPlane → Packet.hops p ≠ 5 → s.b.lateAt .sw p = false → s.b.pidAborted (Packet.part p) = false → s.b.carries port (Packet.part p) → Packet.tailMarked p = false →
    s.b.route p port = .eq n →
    Answers (.switchIngress port p) s (((s.b.partCount (Packet.part p) (Packet.tc p) 0 1).partCount (Packet.part p) (Packet.tc p) 1
      (Packet.size p)).toQueues port p [n])) ∧
  (∀ (s : State) (eq : Nat) (k : VoqKey) (c : Copy) (strict : Bool) (b : Blk), hasEq eq → s.b.serving .sw → eq < 72 →
    s.b.sw.lanes = [] → s.b.sw.intWait = [] → s.b.portUp .sw eq → (s.b.port .sw eq).tx = [] → s.b.choose eq = (some (k, c, strict), b) → s.b.pidAborted c.part = false →
    ∃ t, exec (.egressArbitrate eq) s = .next t ∧ (t.b.port .sw eq).tx = [{ pkt := c.pkt, sent := 0, have_ := c.have_, copy := some c.id, bad := none }]) ∧
  (∀ (s : State) (id : Nat) (k : VoqKey) (c : Copy), s.b.sw.spills = [(id, k)] → s.b.findCopy id = some c → id ∈ (s.b.voq k).ents →
    ∃ t, exec (.spillComplete id) s = .next t ∧ t.b.sw.spills = [] ∧ t.b.sw.nextCopy = s.b.sw.nextCopy + 1) ∧
  (∀ (s : State) (k : VoqKey) (id : Nat) (c : Copy) (ecc : Ecc), hasVoq k → s.b.serving .sw → (s.b.voq k).ents = [id] →
    s.b.findCopy id = some c → c.where_ = .hbm → s.b.hasFlag k 62 = false → s.b.sw.refillCells + c.cells ≤ 32768 →
    Packet.slots c.pkt ≤ c.have_ → s.b.pidAborted c.part = false → s.b.lateAt .sw c.pkt = false → ecc.ue = [] → s.b.sw.badLines = [] →
    ∃ t, exec (.refill k ecc) s = .next t ∧ (t.b.findCopy id).map Copy.where_ = some .refill ∧
      t.b.sw.refillCells = s.b.sw.refillCells + c.cells) ∧
  (∀ (s : State) (e : Sample) (rest : List Sample), s.b.sw.samples = e :: rest → e.open_ = none →
    (s.b.fld .sw offSamplePtr 44 32 + 8192 - s.b.fld .sw offSamplePtr 12 0) % 8192 ≠ 4096 → s.b.dmaOk .sw →
    ∃ t, exec .sampleEntryWrite s = .next t ∧ t.b.sw.samples = rest ∧
      t.b.fld .sw offSamplePtr 44 32 = (s.b.fld .sw offSamplePtr 44 32 + 1) % 8192 ∧
      Emission.dma .sw (s.b.fld .sw offSampleQbase 63 20 * 2 ^ 20 + 256 * (s.b.fld .sw offSamplePtr 44 32 % 4096)) e.bytes ∈ t.b.out) ∧
  (∀ (s : State) (c eq : Nat), hasCal c → SwQuiet s.b → eq < 75 → s.b.calOf eq = c →
    ∃ t, exec (.calendarSlotStart c) s = .next t ∧ (t.b.arb eq).calSlot = s.b.calSlotAt c (s.b.timeNs .sw)) ∧
  (∀ (s : State) (id reason : Nat) (c : Copy), reason ≠ 0 → s.b.findCopy id = some c → c.bad = none → s.b.begunPorts id = [] → s.b.waitingPorts id = [] → c.refs ≤ 1 →
    (∀ q ∈ s.b.sw.voqs, id ∉ q.ents) →
    ∃ t, exec (.frameFoundBad id reason) s = .next t ∧ t.b.findCopy id = none) ∧
  (∀ (s : State), s.b.flag .sw offCmapCtl 16 → s.b.sw.cmapAt ≤ s.b.now .sw →
    ∃ t, exec .cmapIntervalEnd s = .next t ∧ t.b.fld .sw offCmapCtl 17 17 = 1 - s.b.fld .sw offCmapCtl 17 17 ∧
      t.b.fld .sw offCmapCtl 63 32 = (s.b.fld .sw offCmapCtl 63 32 + 1) % 2 ^ 32 ∧
      t.b.sw.cmapAt = s.b.now .sw + 1000 * s.b.fld .sw offCmapCtl 9 0) ∧
  (∀ (s : State), Served s.b .sw → s.b.fld .sw offSwatchCtl 63 32 ≠ 0 → s.b.flag .sw offSwatchCtl 0 = false →
    ∃ t, exec (.swatchEnable true) s = .next t ∧ t.b.flag .sw offSwatchCtl 0 ∧ t.b.fld .sw offSwatchWr 39 0 = 0 ∧
      t.b.fld .sw offSwatchRd 39 0 = 0)

/-- FAULTS AND PATCHING COMPLETE (R408, R423, R425, R426, R429-R432). -/
def Obligations.PatchingCompletes : Prop :=
  (∀ (s : State) (port a : Nat), hasPort .sw port → s.b.inRun .sw → (s.b.port .sw port).loopAt = some a →
    s.b.lstate .sw port = 4 →
    ∃ t, exec (.loopbackTestDone port true) s = .next t ∧ (t.b.port .sw port).loopAt = none ∧ t.b.lstate .sw port = 4) ∧
  (∀ (s : State) (k t a : Nat), hasLsup .sw k → s.b.inRun .sw → (s.b.core .sw).dark.find k = some a → s.b.tileAt k = some t →
    a + 10000000 ≤ s.b.now .sw → s.b.tstate t ≠ 2 →
    ∃ u, exec (.lsupLossPatchTrigger k) s = .next u ∧ t ∈ u.b.sw.patch.queue) ∧
  (∀ (s : State) (t : Nat) (w : TileFault), hasTile t → s.b.inRun .sw → s.b.tstate t = 0 →
    s.b.bucketLevel .sw (.tile t) + 1 < s.b.threshold .sw 3 →
    ∃ u, exec (.tileInternalError t w []) s = .next u ∧
      u.b.fld .sw (offTileStatus t) 31 0 = satAdd 32 (s.b.fld .sw (offTileStatus t) 31 0) 1 ∧
      u.b.bucketLevel .sw (.tile t) = s.b.bucketLevel .sw (.tile t) + 1) ∧
  (∀ (s : State) (e : Nat), hasEngine e → s.b.inRun .sw → s.b.engRetired e = false →
    s.b.sw.engLvl.get e 0 + 1 < s.b.threshold .sw 4 →
    ∃ t, exec (.engineFault e .parity []) s = .next t ∧ t.b.sw.engLvl.get e 0 = s.b.sw.engLvl.get e 0 + 1 ∧ t.b.engRetired e = false) ∧
  (∀ (s : State) (e : Nat), hasEngine e → s.b.inRun .sw → s.b.engRetired e = false →
    s.b.threshold .sw 4 ≤ s.b.sw.engLvl.get e 0 + 1 →
    ∃ t, exec (.engineFault e .parity []) s = .next t ∧ t.b.engRetired e) ∧
  (∀ (s : State) (t : Nat), Served s.b .sw → s.b.spares ≠ 0 → s.b.flag .sw offPatchStatus 2 = false → s.b.sw.lath.job = none → t ≤ 17 →
    s.b.tstate t ≠ 2 →
    ∃ u, exec (.patchGo t) s = .next u ∧ t ∈ u.b.sw.patch.queue) ∧
  (∀ (s : State) (t : Nat) (rest : List Nat), s.b.inRun .sw → s.b.mayPatch → s.b.sw.patch.active = none →
    s.b.sw.patch.queue = t :: rest → t < 18 →
    ∃ u, exec (.patchBegin []) s = .next u ∧ u.b.sw.patch.active = some t ∧ u.b.sw.patch.queue = rest ∧
      u.b.flag .sw offPatchStatus 2 ∧ u.b.tstate t = 1) ∧
  (∀ (s : State) (t p : Nat) (rest : List Nat), s.b.inRun .sw → SwQuiet s.b → s.b.mayPatch → s.b.sw.patch.active = some t → t < 18 →
    s.b.sw.patch.moved = false → s.b.litSpares = p :: rest → s.b.tilePos t < 20 →
    ∃ u, exec (.patchMove [true]) s = .next u ∧ u.b.tilePos t = p ∧ u.b.spares = s.b.spares - 1 ∧ u.b.posFailed (s.b.tilePos t)) ∧
  (∀ (s : State) (t : Nat), s.b.inRun .sw → s.b.sw.patch.active = some t → s.b.sw.patch.moved → t < 18 →
    s.b.sw.patch.at_ + 41000000 ≤ s.b.now .sw → s.b.tstate t ≠ 2 →
    ∃ u, exec .patchEnd s = .next u ∧ u.b.sw.patch.active = none ∧ u.b.flag .sw offPatchStatus 2 = false ∧ u.b.tstate t = 0)

/-- FABRIC MEMORY COMPLETES (R320, R324, R331): a served BAR2 write of one whole line stores it under the current generation, a served
BAR2 read of lines never written answers zeros, a sweep step passes a current line, the scrub of a sound line notes it as
visited, and the last line's completes a pass. -/
def Obligations.FabricMemoryCompletes : Prop :=
  (∀ (s : State) (i l : Nat) (bytes : List Byte) (ecc : Ecc), s.b.inRun .sw → s.bar2Waits (64 * l) 64 = false → bytes.length = 64 →
    s.b.bar2Part (64 * l) 64 = some i →
    ∃ t, exec (.bar2Write (64 * l) bytes ecc) s = .next t ∧ (t.line l).data = bytes ∧ (t.line l).init = false ∧
      (t.line l).gen = (s.b.keyEnt .sw i).g ∧ (∀ m, m ≠ l → t.line m = s.line m) ∧ t.mem = s.mem ∧ s.b.out = t.b.out) ∧
  (∀ (s : State) (i off len : Nat), s.b.inRun .sw → s.bar2Waits off len = false → s.b.bar2Part off len = some i → s.fmem = [] →
    (∀ l, s.b.ueFind l = none) → s.b.sw.badLines = [] →
    ∃ t, exec (.bar2Read off len { errs := [], moved := [] }) s = .next t ∧ t.b.out = .bar2Data off (zeros len) :: s.b.out ∧
      t.fmem = s.fmem ∧ t.mem = s.mem) ∧
  (∀ (s : State) (i l : Nat), hasIndex i → s.b.sweepActive i → s.b.flag .sw offStatus 12 = false → s.b.serving .sw →
    s.b.sweepPtr i = l → s.b.homeStopped (64 * l) 64 = false → s.b.calMay 72 (s.b.partId i) → s.b.ueFree.isSome → s.b.lineForced l = false → s.b.sw.badLines = [] →
    (s.line l).init → l + 1 < 2 ^ 38 →
    ∃ t, exec (.sweepStep i { errs := [], moved := [] }) s = .next t ∧ t.b.oldLines i = s.b.oldLines i - 1 ∧ t.b.sweepPtr i = l + 1 ∧
      t.b.sweepActive i = decide (l < s.b.winLast i) ∧ t.fmem = s.fmem) ∧
  (∀ (s : State) (l : Nat), s.b.homeStopped (64 * l) 64 = false → s.b.calMay 72 (s.b.lineOwner l) → s.b.serving .sw →
    l < s.b.carveLines → s.b.sw.badLines = [] → s.b.sw.ceLines = [] → s.b.sw.ueRows = [] →
    let n := ((addNew s.b.sw.scrubbed l).filter (fun x => decide (x < s.b.carveLines))).length
    ∃ t, exec (.scrubStep l { errs := [], moved := [] }) s = .next t ∧ t.fmem = s.fmem ∧
      (n < s.b.carveLines → t.b.sw.scrubbed = addNew s.b.sw.scrubbed l ∧ t.b.reg .sw offHbmStatus = s.b.reg .sw offHbmStatus) ∧
      (s.b.carveLines ≤ n → t.b.sw.scrubbed = [] ∧ t.b.fld .sw offHbmStatus 63 32 = (s.b.fld .sw offHbmStatus 63 32 + 1) % 2 ^ 32))

/-- LATH LOADS COMPLETE (R354-R356, R358, R359, R363, R380). A LATH_LOAD whose buffer can be read begins a load; an image is
checked; one that passes every check is measured and its tables are written, fabric memory as a full one clears it; the load then ends with the image in force, its acknowledge 0x0000; a group that has
been cleared is no longer listed. A LATH_LOAD while a load is in progress is answered BUSY at once, one in supply hold HOLD. -/
def Obligations.LathCompletes : Prop :=
  (∀ (s : State) (m : List Byte) (part : Option (Nat × Nat × Nat)), s.b.clocked .sw → (s.b.core .sw).mbox.taken.find? (fun x => msgCode x == 0x10) = some m →
    s.b.stateRefuses .sw 0x10 = none → msgReserved m 12 → s.b.sw.lath.job = none → s.b.sw.lath.heldMsg = none →
    s.b.inSupplyHold = false → s.b.swc.boot.started → msgArg m 0 8 % 4096 = 0 → 1472 ≤ msgArg m 8 4 → msgArg m 8 4 ≤ 4194304 →
    s.b.canDma .sw →
    ∃ t, exec (.lathLoad part) s = .next t ∧ t.b.fld .sw offLathStatus 3 0 = 1 ∧ t.b.sw.lath.job.map LathJob.msg = some m ∧
      t.b.sw.lath.job.map LathJob.owner = some s.b.sw.lath.owner ∧ (t.b.core .sw).mbox.taken = (s.b.core .sw).mbox.taken.erase m) ∧
  (∀ (s : State) (j : LathJob) (raw : List Byte), s.b.inRun .sw → s.b.sw.lath.job = some j → j.image = none →
    s.b.inSupplyHold = false →
    let m := padTo (msgArg j.msg 8 4) raw
    exec (.lathImageFetched (some raw)) s = .next (match (s.b.setLathState 2).checkImage m (msgArg j.msg 8 4) with
      | some e => { s with b := s.b.loadFails j.msg e.1 e.2.1 e.2.2 }
      | none => if imgFull m then { s with b := (s.b.measure m).applyFull m, fmem := [] }
        else State.clearWindows { s with b := (s.b.measure m).applyPartial m })) ∧
  (∀ (s : State) (j : LathJob) (m : List Byte), s.b.inRun .sw → SwQuiet s.b → s.b.inSupplyHold = false → s.b.sw.lath.job = some j →
    j.image = some m →
    ∃ t, exec .lathInForce s = .next t ∧ t.b.fld .sw offLathStatus 3 0 = 5 ∧ t.b.flag .sw offLathStatus 4 ∧
      t.b.fld .sw offLathStatus 63 48 = 0 ∧ t.b.reg .sw offLathId = BitVec.ofNat 64 (imgId m) ∧ t.b.sw.lath.job = none ∧
      (t.b.core .sw).mbox.acks = (s.b.core .sw).mbox.acks ++ [{ token := msgToken j.msg, msg := msgCode j.msg, code := 0, resp := [] }]) ∧
  (∀ (s : State) (g : Nat), hasGroup g → s.b.inRun .sw →
    ∃ t, exec (.groupClearDone g) s = .next t ∧ g ∉ t.b.sw.lath.clearing) ∧
  (∀ (s : State) (m : List Byte) (part : Option (Nat × Nat × Nat)), s.b.clocked .sw → (s.b.core .sw).mbox.taken.find? (fun x => msgCode x == 0x10) = some m →
      s.b.stateRefuses .sw 0x10 = none → msgReserved m 12 →
      let b := s.b.modMbox .sw (fun x => { x with taken := x.taken.erase m })
      (s.b.sw.lath.job.isSome ∨ s.b.sw.lath.heldMsg.isSome → Answers (.lathLoad part) s (b.ack .sw m 1 [])) ∧
      (s.b.sw.lath.job = none → s.b.sw.lath.heldMsg = none → s.b.inSupplyHold → Answers (.lathLoad part) s (b.ack .sw m 2 [])))

/-- SPDM COMPLETES (R379, R382, R390-R393): what each request answers where it may be served, with what it changes of the sessions. -/
def Obligations.SpdmCompletes : Prop :=
  (∀ (s : State) (d : Dev), s.b.clocked d →
    Answers (.getVersion d) s ((s.b.modSpdm d (fun x => { x with algs := false })).doe d (.version 0x12)) ∧
    Answers (.getCapabilities d) s (s.b.doe d (.capabilities 17 Blk.spdmCaps)) ∧
    (∀ i, i < 3 → Answers (.doeDiscovery d i) s (s.b.doe d (.discovery 1 i ((i + 1) % 3)))) ∧
    (∀ id x, s.b.session d id = some x → x.lastMsg + 120000000000 ≤ s.b.now d →
      ∃ t, exec (.sessionTimeout d id) s = .next t ∧ t.b.session d id = none)) ∧
  (∀ (s : State) (d : Dev) (ir : Nat),
    Answers (.jtagInstruction d true false ir) s (s.b.emit (.jtag d .idcode)) ∧
    Answers (.jtagInstruction d false true ir) s (s.b.emit (.jtag d .bypass)) ∧
    Answers (.jtagInstruction d false false ir) s (s.b.emit (.jtag d (if s.b.lockedPart d then .bypass else .other ir)))) ∧
  (∀ (s : State) (d : Dev), SpdmReady s.b d →
    (∀ o : AlgOffer, o.baseAsym → o.reqAsym → o.hash → o.measHash → o.dhe → o.aead →
      o.keySched →
      Answers (.negotiateAlgorithms d o) s ((s.b.modSpdm d (fun x => { x with algs := true })).doe d .algorithms)) ∧
    ((s.b.spdm d).algs → Answers (.getDigests d none) s (s.b.doe d (.digests (s.b.core d).certOk))) ∧
    ((s.b.spdm d).algs → (s.b.core d).certOk →
      (∀ nonce, Answers (.getCertificate d 0 none) s (s.b.doe d (.certificate true)) ∧
        Answers (.challenge d 0 nonce none) s (s.b.doe d (.challengeAuth nonce)) ∧
        Answers (.getMeasurements d 0 true none) s (s.b.doe d (.measurements (s.b.measCount d) [] true)) ∧
        Answers (.getMeasurements d 0xFF true none) s (s.b.doe d (.measurements (s.b.measCount d) (s.b.measAll d) true)))) ∧
    ((s.b.spdm d).algs → (s.b.core d).certOk → (s.b.spdm d).sessions.length < 8 →
      ∃ t, exec (.keyExchange d) s = .next t ∧ t.b.out = .doe d (.keyExchangeRsp (s.b.spdm d).nextId true 60) :: s.b.out ∧
        (t.b.spdm d).sessions = (s.b.spdm d).sessions ++ [{ id := (s.b.spdm d).nextId, open_ := false, agent := none, lastMsg := s.b.now d }]) ∧
    (∀ code, code ∉ Blk.spdmCodes → Answers (.spdmUnsupported d code) s (s.b.spdmErr d 7)) ∧
    (∀ i, (s.b.spdm d).deferred = some i →
      Answers (.respondIfReady d) s ((s.b.modSpdm d (fun x => { x with deferred := none })).answerKept i)) ∧
    (∀ q, Answers (.vendorDefinedRequest d none q) s (s.b.spdmErr d 4))) ∧
  (∀ (s : State) (d : Dev) (id : Nat) (x : Session), SpdmReady s.b d → s.b.session d id = some x →
    (x.open_ = false → x.agent = none →
      ∃ t, exec (.getEncapsulatedRequest d id) s = .next t ∧ t.b.out = .doe d (.encapRequest id) :: s.b.out) ∧
    (∀ cert, x.open_ = false →
      ∃ t, exec (.deliverEncapsulatedResponse d id cert) s = .next t ∧ t.b.out = .doe d (.encapAck id) :: s.b.out ∧
        t.b.session d id = some { x with agent := cert, lastMsg := s.b.now d }) ∧
    (x.open_ = false → x.agent.isSome →
      ∃ t, exec (.finish d id true) s = .next t ∧ t.b.out = .doe d (.finishRsp id) :: s.b.out ∧
        t.b.session d id = some { x with open_ := true, lastMsg := s.b.now d }) ∧
    (x.open_ →
      (∃ t, exec (.heartbeat d id) s = .next t ∧ t.b.out = .doe d (.heartbeatAck id) :: s.b.out ∧
        t.b.session d id = some { x with lastMsg := s.b.now d }) ∧
      (∃ t, exec (.keyUpdate d id) s = .next t ∧ t.b.out = .doe d (.keyUpdateAck id) :: s.b.out ∧
        t.b.session d id = some { x with lastMsg := s.b.now d }) ∧
      (∃ t, exec (.endSession d id) s = .next t ∧ t.b.out = .doe d (.endSessionAck id) :: s.b.out ∧ t.b.session d id = none) ∧
      ((s.b.spdm d).algs → ∃ t, exec (.getDigests d (some id)) s = .next t ∧
        t.b.out = .doe d (.digests (s.b.core d).certOk) :: s.b.out ∧ t.b.session d id = some { x with lastMsg := s.b.now d }) ∧
      (∀ q, Blk.reqCmd q ∉ [1, 2, 3, 4, 5, 0x10, 0x11, 0x12, 0x13, 0x20, 0x21] →
        ∃ t, exec (.vendorDefinedRequest d (some id) q) s = .next t ∧
          t.b.out = .doe d (.genard (Blk.reqCmd q) 9 (Blk.reqPart q) []) :: s.b.out)))

/-- KEY COMMANDS COMPLETE (R323, R327, R379, R389, R394-R399): a command of the bound agent that no refusal of R395 applies to is answered
OK and does what its rule says; flips, the emptying of a retired slot and the end of HOLDOFF act when their time has come. -/
def Obligations.KeyCommandsComplete : Prop :=
  (∀ (s : State) (d : Dev) (h : GenardHead) (x : Session) (n : Nat), s.b.keyNo d (Blk.reqPart h.req) = some n →
    ((s.b.keyEnt d n).agent = none ∨ (s.b.keyEnt d n).agent = x.agent) → (d = .sw → s.b.relathing (Blk.reqPart h.req) = false) →
    let pid := Blk.reqPart h.req
    let a := Blk.reqArgs h.req
    let e := s.b.keyEnt d n
    let ok := fun (i : Instr) (cmd : Nat) (e' : KeyEnt) =>
      ∃ t, exec i s = .next t ∧ t.b.out.head? = some (.doe d (.genard cmd 0 pid [])) ∧ t.b.keyEnt d n = e'
    (GenardIn s.b d h x 1 80 → (d = .sw → leAt a 0 8 = 0) → (d = .ep → leAt a 0 8 < 2 ∧ leAt a 16 64 = 0) →
      (d = .ep → e.used ∨ s.b.epEntries < 64) → e.flipAt = none →
      let k : KeyVal := { id := leAt a 8 8, key := BitVec.ofNat 512 (leAt a 16 64), masked := leAt a 0 8 == 1 }
      (e.cur = none → ok (.install d h) 1 { e with used := true, agent := x.agent, cur := some k }) ∧
      (e.cur.isSome → e.other = .empty →
        ok (.install d h) 1 { e with used := true, agent := x.agent, other := .new, otherKey := some k })) ∧
    (GenardIn s.b d h x 2 8 → e.flipAt = none → e.other = .new → e.holdoff = none → (d = .sw → s.b.sweepActive n = false) →
      1000000 ≤ (leAt a 0 8 + 2 ^ 64 - s.b.timeNs d) % 2 ^ 64 → (leAt a 0 8 + 2 ^ 64 - s.b.timeNs d) % 2 ^ 64 ≤ 10000000000 →
      ok (.makeCurrent d h) 2 { e with flipAt := some (leAt a 0 8) }) ∧
    (GenardIn s.b d h x 3 0 → e.flipAt = none → e.other = .previous → (d = .sw → s.b.sweepActive n = false ∧ s.b.oldLines n = 0) →
      ok (.retire d h) 3 { e with other := .retiring }) ∧
    (d = .sw → GenardIn s.b d h x 4 0 → e.flipAt = none → e.other = .previous → s.b.sweepActive n = false → s.b.oldLines n = (s.b.unforced n).length →
      ok (.retireForce .sw h) 4 { e with other := .retiring }) ∧
    (d = .ep → GenardIn s.b d h x 5 0 → ok (.clear .ep h) 5 KeyEnt.empty) ∧
    (GenardIn s.b d h x 0x10 0 → ∃ t, exec (.partStatus d h) s = .next t ∧ t.b.out = .doe d (.genard 0x10 0 pid (s.b.statusData d pid n e)) :: s.b.out)) ∧
  (∀ (s : State) (h : GenardHead) (x : Session) (i : Nat), s.b.partIndex (Blk.reqPart h.req) = some i →
    (s.b.keyEnt .sw i).agent.isSome → (s.b.keyEnt .sw i).agent = x.agent →
    let gives := fun (c : Instr) (cmd : Nat) (data : List Byte) =>
      ∃ t, exec c s = .next t ∧ t.b.out = .doe .sw (.genard cmd 0 (Blk.reqPart h.req) data) :: s.b.out
    (GenardIn s.b .sw h x 0x11 0 → gives (.readCounters .sw h) 0x11 (s.b.counterData i)) ∧
    (GenardIn s.b .sw h x 0x12 2 → s.b.slotOutside (leAt (Blk.reqArgs h.req) 0 2) i = false →
      gives (.readSlot .sw h) 0x12 (s.b.slotData (leAt (Blk.reqArgs h.req) 0 2))) ∧
    (GenardIn s.b .sw h x 0x13 0 → gives (.readEvents .sw h) 0x13 (s.b.eventData i))) ∧
  (∀ (s : State) (h : GenardHead) (x : Session),
    let args := Blk.reqArgs h.req
    (GenardIn s.b .sw h x 0x21 8 → ∃ t, exec (.readLathLog .sw h) s = .next t ∧
      t.b.out = .doe .sw (.genard 0x21 0 (Blk.reqPart h.req) (s.b.logData (leAt args 0 8))) :: s.b.out) ∧
    (GenardIn s.b .sw h x 0x20 1036 → s.b.sw.lath.owner = none → leAt args 512 4 = 65537 → (slice args 0 512).any (fun y => y != 0#8) →
      ∃ t, exec (.setOwner .sw h) s = .next t ∧ t.b.flag .sw offSecState 4 ∧
        t.b.sw.lath.owner = some { keyDigest := Config.sha512 (slice args 0 516), modulus := slice args 0 512, minSvn := leAt args 516 4,
                                   serial := leAt args 520 4 } ∧
        t.b.out.head? = some (.doe .sw (.genard 0x20 0 (Blk.reqPart h.req) [])))) ∧
  (∀ (s : State) (d : Dev) (pid n : Nat), s.b.inRun d → s.b.keyNo d (pid % 4096) = some n →
    let e := s.b.keyEnt d n
    (∀ at_, e.flipAt = some at_ → (s.b.timeNs d + 2 ^ 64 - at_) % 2 ^ 64 < 2 ^ 63 →
      ∃ t, exec (.keyFlip d pid) s = .next t ∧
        t.b.keyEnt d n = { e with g := 1 - e.g % 2, cur := e.otherKey, other := .previous, otherKey := e.cur, flipAt := none,
                                  lastOld := e.lastCur, lastCur := 0 }) ∧
    (e.other = .retiring → s.b.oldHeld d (pid % 4096) e = false → e.lastOld + 600000 ≤ s.b.now d →
      ∃ t, exec (.keySlotEmptied d pid) s = .next t ∧
        t.b.keyEnt d n = { e with other := .empty, otherKey := none, holdoff := some (s.b.now d) }) ∧
    (∀ at_, e.holdoff = some at_ → at_ + 800000 ≤ s.b.now d →
      ∃ t, exec (.holdoffClear d pid) s = .next t ∧ t.b.keyEnt d n = { e with holdoff := none })) ∧
  (∀ (s : State) (pid : Nat), Served s.b .ep →
    ∃ t, exec (.secFlush pid) s = .next t ∧ t.b.keyEnt .ep (pid % 4096) = KeyEnt.empty ∧
      (∀ l ∈ t.b.ep.fc, l.part ≠ pid % 4096) ∧ (∀ n, n ≠ pid % 4096 → t.b.keyEnt .ep n = s.b.keyEnt .ep n))

/-- SLOT COMMANDS COMPLETE (R212-R214, R238): ADMIT at a FREE slot that passes the checks moves it to ADMIT_WAIT, in the order of the ADMITs;
a slot whose turn has come and whose reservation fits becomes ACTIVE; CLOSE moves an ACTIVE root to CLOSING and sends CLOSE; RELEASE
frees any slot that is not FREE. A command its state does not take, or an ADMIT that fails a check, sets ERR and the cause only. -/
def Obligations.SlotsComplete : Prop :=
  (∀ (s : State) (n : Nat), hasSlot n → Served s.b .sw → s.b.sw.waiting = [] →
    let refused := fun (i : Instr) (cause : Nat) =>
      ∃ t, exec i s = .next t ∧ t.b.cfld n 0x18 11 11 = 1 ∧ t.b.cfld n 0x18 15 12 = cause ∧ t.b.slotState n = s.b.slotState n ∧
        t.b.sw = s.b.sw ∧ t.b.out = s.b.out
    (s.b.slotState n = 0 → s.b.admitCause n = 0 →
      ∃ t, exec (.slotAdmit n) s = .next t ∧ t.b.slotState n = 1 ∧ (t.b.slot n).order = s.b.sw.admits + 1 ∧ t.b.sw.admits = s.b.sw.admits + 1) ∧
    (s.b.slotState n = 0 → s.b.admitCause n ≠ 0 → refused (.slotAdmit n) (s.b.admitCause n)) ∧
    (s.b.slotState n ≠ 0 → refused (.slotAdmit n) 1) ∧
    (s.b.slotState n = 2 → s.b.isRoot n →
      Answers (.slotClose n) s (s.b.closeSlot n) ∧ (s.b.toClosing n).slotState n = 3 ∧
        (s.b.toClosing n).cfld n 0x18 10 10 = 1 ∧ ((s.b.toClosing n).slot n).closeAt = some (s.b.now .sw) ∧
        ((s.b.toClosing n).slot n).blocks = (s.b.slot n).blocks.filter (fun x => x.result.isSome)) ∧
    (s.b.slotState n ≠ 2 ∨ s.b.isRoot n = false → refused (.slotClose n) 1) ∧
    (s.b.slotState n ≠ 0 →
      ∃ t, exec (.slotRelease n) s = .next t ∧ t.b.slotState n = 0 ∧ t.b.slot n = Slot.idle ∧ t.b.out = s.b.out ∧
        (∀ m, m ≠ n → t.b.slot m = s.b.slot m)) ∧
    (s.b.slotState n = 0 → refused (.slotRelease n) 1)) ∧
  (∀ (s : State) (n i : Nat), hasSlot n → s.b.serving .sw → s.b.slotState n = 1 → s.b.partIndex (s.b.collPart n) = some i →
    let same := (upto 1024).filter (fun m => s.b.collPart m == s.b.collPart n)
    (∀ m ∈ same, m ≠ n → s.b.slotState m = 1 → (s.b.slot n).order ≤ (s.b.slot m).order) →
    same.foldl (fun a m => a + (s.b.slot m).reserved) 0 + s.b.reservation n ≤ s.b.partRmem i →
    ∃ t, exec (.slotAdmitted n) s = .next t ∧ t.b.slotState n = 2 ∧ (t.b.slot n).reserved = s.b.reservation n ∧ (t.b.slot n).blocks = [] ∧
      (t.b.slot n).progressAt = s.b.now .sw ∧ t.b.lowOf n = 0)

/-- PACKETS OF A COLLECTIVE COMPLETE at the switch (R188-R190, R193, R225, R228, R231, R233, R238): what the reduction complex does with a
packet its slot takes. A repeated fragment is dropped and counted, and changes no slot. -/
def Obligations.CollectivePacketsComplete : Prop :=
  ∀ (s : State) (port n : Nat) (p : Packet) (mis : Bool),
    let b := s.b.noteKey .sw (Packet.part p) (Packet.keyGen p)
    let c := Packet.chunk p
    let all := fun (l : List Nat) (e : Nat) => ∀ g ∈ s.b.legs n, g = e ∨ g ∈ l
    (∀ e x, CollBelow s.b port p 0x20 0 n e false → s.b.legChild n e = false → (s.b.slot n).screed → e ∈ (s.b.slot n).joined →
      c < s.b.nchunks n → Blk.fragFits p (s.b.chunkFragLast n c) (min 4096 (s.b.chunkBytes n c - 4096 * Packet.frag p)) →
      s.b.settled n c = false → s.b.blockFor n c = some x → bitOf ((Blk.legRec x e).frags.get 0 0) (Packet.frag p) = false →
      Answers (.collContrib port p mis) s (b.acceptFrag n e x 0 (Packet.frag p) (Packet.check p)
        ((elemsOf (s.b.dtypeInForce n) (Packet.frag p) (Packet.wire p)).foldl (fun (a : Tbl Int) v =>
          a.set v.1 (a.get v.1 0 + imageSum (s.b.wInForce n) (toImage (s.b.qInForce n) (s.b.wInForce n) v.2)) 0) x.acc) mis)) ∧
    (∀ e, CollBelow s.b port p 0x20 0 n e false → s.b.legChild n e = false → (s.b.slot n).screed → e ∈ (s.b.slot n).joined →
      c < s.b.nchunks n → Blk.fragFits p (s.b.chunkFragLast n c) (min 4096 (s.b.chunkBytes n c - 4096 * Packet.frag p)) →
      (s.b.settled n c ∨ ∃ x, s.b.findBlock n c = some x ∧ bitOf ((Blk.legRec x e).frags.get 0 0) (Packet.frag p)) →
      ∃ t, exec (.collContrib port p mis) s = .next t ∧ t.b.cfld n 0x30 63 48 = satAdd 16 (s.b.cfld n 0x30 63 48) 1 ∧
        (∀ m, t.b.slot m = s.b.slot m) ∧ t.b.out = s.b.out) ∧
    (∀ e x, CollBelow s.b port p 0x21 0 n e false → s.b.legChild n e → (s.b.slot n).screed → c / 64 < s.b.nchunks n →
      let ec := s.b.chunkElems n (c / 64)
      c % 64 < (ec + 4095) / 4096 →
      Blk.fragFits p (partFragLast ec (s.b.wInForce n) (c % 64)) (partFragBytes ec (s.b.wInForce n) (c % 64) (Packet.frag p)) →
      s.b.settled n (c / 64) = false → s.b.blockFor n (c / 64) = some x →
      bitOf ((Blk.legRec x e).frags.get (c % 64) 0) (Packet.frag p) = false →
      Answers (.collPartial port p mis) s (b.acceptFrag n e x (c % 64) (Packet.frag p) (Packet.check p)
        (addPartBytes x.acc ec (s.b.wInForce n) (c % 64) (Packet.frag p) (Packet.wire p)) mis)) ∧
    (∀ e, CollBelow s.b port p 0x22 0 n e false → s.b.collExp n → c % 2048 = 0 → c < s.b.nchunks n → (s.b.slot n).screed = false →
      let cnt := min (Packet.payloadBytes p / 2) (s.b.nchunks n - c)
      ∃ t, exec (.collExponents port p) s = .next t ∧ bitOf ((t.b.slot n).expGot.get e 0) (c / 2048) ∧
        (∀ j, j < cnt → t.b.expEntry n (c + j) = combineExp (s.b.expEntry n (c + j)) (beNat (slice p.payload (2 * j) 2))) ∧
        (∀ k, (∀ j, j < cnt → k ≠ c + j) → t.b.expEntry n k = s.b.expEntry n k)) ∧
    (∀ e, CollBelow s.b port p 0x25 4 n e false → s.b.legChild n e →
      ((s.b.slot n).screed → Answers (.ready port p) s (b.screedLeg n e)) ∧
      ((s.b.slot n).screed = false → ∃ t, exec (.ready port p) s = .next t ∧ e ∈ (t.b.slot n).readyLegs)) ∧
    (∀ e, CollBelow s.b port p 0x25 2 n e false → s.b.legChild n e = false →
      (bits (leAt p.payload 4 1) 2 0 = s.b.cfld n 0 5 3 → ∃ t, exec (.join port p) s = .next t ∧ e ∈ (t.b.slot n).joined) ∧
      (bits (leAt p.payload 4 1) 2 0 ≠ s.b.cfld n 0 5 3 → Answers (.join port p) s (b.ctlLeg n e 0x26 4 0xD 0 [] []))) ∧
    (∀ e, CollBelow s.b port p 0x25 1 n e true → c < s.b.nchunks n →
      let noted := b.modSlot n (fun x => { x with acks := x.acks.set c (addNew (x.acks.get c []) e) [] })
      let have_ := (s.b.slot n).acks.get c []
      (s.b.isRoot n = false → all have_ e → c ∉ (s.b.slot n).ackUp →
        Answers (.resultAck port p) s ((noted.modSlot n (fun x => { x with ackUp := addNew x.ackUp c })).ctlUp n 0x25 1 c)) ∧
      (s.b.isRoot n = false → (∃ g ∈ s.b.legs n, g ≠ e ∧ g ∉ have_) → Answers (.resultAck port p) s noted) ∧
      (s.b.isRoot n → c = s.b.lowOf n → all have_ e → (s.b.findBlock n c).any (fun x => x.result.isSome) →
        ∃ t, exec (.resultAck port p) s = .next t ∧ c < t.b.lowOf n ∧ t.b.findBlock n c = none)) ∧
    (∀ e, CollBelow s.b port p 0x25 7 n e true →
      ∃ t, exec (.closeAck port p) s = .next t ∧ e ∈ (t.b.slot n).closeAcks ∧
        (s.b.isRoot n = false → all (s.b.slot n).closeAcks e → (t.b.slot n).closeUp)) ∧
    (∀ e, CollBelow s.b port p 0x25 6 n e true → (s.b.slot n).doneAt.isSome →
      ∃ t, exec (.doneAck port p) s = .next t ∧ e ∈ (t.b.slot n).doneAcks ∧
        (all (s.b.slot n).doneAcks e → t.b.slotState n = 4 ∧ (t.b.slot n).reserved = 0 ∧ (t.b.slot n).blocks = [])) ∧
    (CollTaken s.b port p 0x26 1 n → (if s.b.memberLegs n then (s.b.legOf n port p).isSome else ∃ e ∈ s.b.legs n, s.b.legPort n e = port) →
      (s.b.isRoot n = false → Answers (.resultNack port p) s (b.passOn port p (fun b q => b.collUp n q))) ∧
      (∀ x r, s.b.isRoot n → s.b.findBlock n c = some x → x.result = some r →
        let ps := (b.resultPackets n x.chunk (Packet.src p) (Packet.member p) r).filter (fun q => bitOf (beNat (slice p.payload 16 8)) (Packet.frag q))
        Answers (.resultNack port p) s ((b.forEach ps (fun b q => b.resultRouted q)).slotCount n 0 ps.length))) ∧
    (∀ e, CollBelow s.b port p 0x26 2 n e false → s.b.legChild n e → c < s.b.nchunks n → (s.b.isRoot n → s.b.rounded n c = false) →
      Answers (.chunkFail port p) s (b.chunkFails n c)) ∧
    (CollAbove s.b port p 0x23 0 n → leAt p.payload 2 1 = s.b.arithWidth n → leAt p.payload 3 1 = s.b.arithDtype n →
      ∃ t, exec (.collScreed port p) s = .next t ∧ (t.b.slot n).screed ∧ t.b.cfld n 0x28 63 48 = beNat (slice p.payload 0 2) ∧
        t.b.cfld n 0x28 43 42 = s.b.arithWidth n ∧ t.b.cfld n 0x28 41 38 = s.b.arithDtype n ∧ t.b.cfld n 0x28 47 47 = 1) ∧
    (CollAbove s.b port p 0x25 5 n →
      Answers (.freed port p) s ((b.modSlot n (fun x => { x with
        acks := x.acks.filter (fun e => decide (c ≤ e.1)), resets := x.resets.filter (fun e => decide (c ≤ e.1)),
        ackUp := x.ackUp.filter (fun k => decide (c ≤ k)) })).collDown n (b.ctlDownPacket n 0x25 5 c []))) ∧
    (CollAbove s.b port p 0x26 3 n →
      ∃ t, exec (.close port p) s = .next t ∧ t.b.slotState n = 3 ∧ (s.b.slotState n = 2 → ∀ x ∈ (t.b.slot n).blocks, x.result.isSome)) ∧
    (CollAbove s.b port p 0x25 6 n → ∃ t, exec (.done port p) s = .next t ∧ (t.b.slot n).doneAt.isSome) ∧
    (CollAbove s.b port p 0x24 0 n → Packet.dst p = 16383 →
      (c ∈ (s.b.slot n).ackUp → Answers (.collResult port p) s (b.ctlUp n 0x25 1 c)) ∧
      (c ∉ (s.b.slot n).ackUp → (s.b.slot n).acks.get c [] = [] →
        Answers (.collResult port p) s (b.passOn port p (fun b q => b.collDown n q))) ∧
      (c ∉ (s.b.slot n).ackUp → (s.b.slot n).acks.get c [] ≠ [] →
        Answers (.collResult port p) s (b.passOn port p (fun b q => b.toLegs n (s.b.unacked n c) [q])))) ∧
    (CollAbove s.b port p 0x27 1 n → leAt p.payload 1 1 ≠ 0 → c < s.b.nchunks n → Answers (.recontrib port p) s (b.resetChunk n c))

/-- TIMERS OF A COLLECTIVE COMPLETE (R178, R224, R225, R227, R229, R231, R233, R238): each acts when its time has come and its condition
holds. -/
def Obligations.CollTimersComplete : Prop :=
  (∀ (s : State) (n : Nat), hasSlot n → s.b.serving .sw → s.b.sw.waiting = [] →
    (s.b.slotState n = 2 → s.b.isRoot n → s.b.inSupplyHold = false → (s.b.slot n).doneAt = none →
      (s.b.slot n).progressAt + s.b.collTimeout n ≤ s.b.now .sw → Answers (.progressTimeout n) s (s.b.closeSlot n)) ∧
    (∀ t0, s.b.slotState n = 3 → s.b.isRoot n → (s.b.slot n).doneAt = none → (s.b.slot n).closeAt = some t0 →
      t0 + s.b.collTimeout n ≤ s.b.now .sw →
      Answers (.closePhaseEnd n) s ((s.b.modSlot n (fun x => { x with doneAt := some (s.b.now .sw) })).sendDone n)) ∧
    (∀ t0, (s.b.slotState n = 2 ∨ s.b.slotState n = 3) → (s.b.slot n).doneAt = some t0 → t0 + s.b.collTimeout n ≤ s.b.now .sw →
      ∃ t, exec (.doneTimeout n) s = .next t ∧ t.b.slotState n = 4 ∧ (t.b.slot n).reserved = 0) ∧
    (s.b.slotState n = 2 → s.b.isRoot n = false → (s.b.slot n).screed = false → (s.b.slot n).readyUp → (s.b.slot n).expUp = false →
      s.b.resendDue n 0 → Answers (.collResendTimer .sw n) s (s.b.sendReady n)) ∧
    (s.b.slotState n = 2 → s.b.isRoot n → 0 < s.b.lowOf n → (s.b.slot n).doneAt = none →
      s.b.resendDue n 2 → Answers (.collResendTimer .sw n) s (s.b.sendFreed n))) ∧
  (∀ (s : State) (c : ChunkRef) (x : Block), s.b.serving .sw → c.slot < 1024 → s.b.findBlock c.slot c.chunk = some x →
    Answers (.accumulatorUe c false) s (s.b.resetChunk c.slot c.chunk) ∧
    Answers (.accumulatorUe c true) s (s.b.modSw (fun w => { w with accCe := w.accCe + 1 })) ∧
    (∀ leg, s.b.slotState c.slot = 2 → s.b.legValid c.slot leg → s.b.legChild c.slot leg = false →
      (Blk.legRec x leg).frags.get 0 0 ≠ 0 → (Blk.legRec x leg).frags.get 0 0 ≠ 2 ^ (s.b.chunkFragLast c.slot c.chunk + 1) - 1 →
      (Blk.legRec x leg).lastAt + tResend ≤ s.b.now .sw →
      ∃ t, exec (.fragmentRequestTimer c leg) s = .next t ∧ t.b.cfld c.slot 0x30 15 0 = satAdd 16 (s.b.cfld c.slot 0x30 15 0) 1 ∧
        t.b.cfld c.slot 0x30 31 16 = s.b.cfld c.slot 0x30 31 16) ∧
    (∀ leg, s.b.slotState c.slot = 2 → x.result = none → s.b.legValid c.slot leg → s.b.legChild c.slot leg →
      (Blk.legRec x leg).frags ≠ [] → s.b.legDone c.slot x leg = false → (Blk.legRec x leg).lastAt + tResend ≤ s.b.now .sw →
      ∃ t, exec (.childStallTimer c leg) s = .next t ∧ t.b.cfld c.slot 0x30 31 16 = satAdd 16 (s.b.cfld c.slot 0x30 31 16) 1 ∧
        t.b.cfld c.slot 0x28 32 32 = 1 ∧ (t.b.slot c.slot).resets.get c.chunk 0 = (s.b.slot c.slot).resets.get c.chunk 0 + 1) ∧
    (∀ r, x.result = some r → s.b.isRoot c.slot → s.b.slotState c.slot = 2 → r.sentAt + tResend ≤ s.b.now .sw →
      s.b.calMay 73 (s.b.collPart c.slot) →
      let es := s.b.unacked c.slot c.chunk
      let ps := s.b.resultPackets c.slot c.chunk 16383 0 r
      Answers (.resultResendTimer c) s (((s.b.putBlock c.slot { x with result := some { r with sentAt := s.b.now .sw } }).forEach es (fun b e =>
        b.forEach ps (fun b q => b.resultTo (b.forLeg c.slot e q) [b.legPort c.slot e]))).slotCount c.slot 0 (es.length * ps.length))))

/-- MEMBERS COMPLETE (R190, R218-R222, R225, R229, R231-R235, R238, R239): the beginning of a CONTRIB, and what an entry of the end point does
with each packet that matches it alone and at each of its timers. -/
def Obligations.MembersComplete : Prop :=
  (∀ (s : State) (n : Nat) (d : ProgDesc) (rest : List ProgDesc), HeadReady s n d rest → d.type = 4 → Blk.contribOk d →
    s.b.tallyOk n d → s.b.collPlaneOk n d.planeNo → s.b.collOf n d = none → d.firstChunk = 0 → s.b.ep.colls.length < 256 →
    s.b.findColl s.b.ep.nextColl = none →
    ∃ t y, exec (.contrib n) s = .next t ∧ t.b.ep.colls = s.b.ep.colls ++ [y] ∧ y.ctx = n ∧ y.plane = d.planeNo ∧ y.collId = d.collId ∧
      y.member = d.member ∧ y.code = d.chunkCode ∧ y.params = none ∧ y.descs = [Blk.contribRec d] ∧ (t.b.ctx n).engine = none) ∧
  (∀ (s : State) (port : Nat) (p : Packet) (x : CollEnt),
    let nb := ((s.b.owe .ep port (Packet.tc p) (Packet.slots p)).noteKey .ep (Packet.part p) (Packet.keyGen p)).updColl x.id
      (fun y => { y with lastPkt := s.b.now .ep })
    let x' := { x with lastPkt := s.b.now .ep }
    let c := Packet.chunk p
    let f := Packet.frag p
    (MemberTaken s.b port p 0x25 3 true x → x.params = none →
      let pr := State.joinReplyParams p
      let b := nb.updColl x.id (fun y => { y with params := some pr })
      (s.b.running x = none → Answers (.joinReply port p) s b) ∧
      (∀ d, s.b.running x = some d → x.fits pr d.firstChunk d.length → pr.exp = false →
        Answers (.joinReply port p) s ((b.fillWindow x.id).restContrib x.id)) ∧
      (∀ d, s.b.running x = some d → x.fits pr d.firstChunk d.length = false →
        Answers (.joinReply port p) s ((b.headEnds x.ctx 0xD).updColl x.id (fun y => { y with descs := [], toSend := [] })))) ∧
    (MemberTaken s.b port p 0x26 4 true x →
      ∃ t, exec (.joinRefuse port p) s = .next t ∧ t.b.findColl x.id = none ∧ t.mem = s.mem) ∧
    (MemberTaken s.b port p 0x23 0 false x → x.screed = none →
      let dt := leAt p.payload 3 1
      let b := nb.updColl x.id (fun y => { y with
        screed := some (toSigned 16 (beNat (slice p.payload 0 2)), windowBits (leAt p.payload 2 1), dt) })
      (s.b.running x = none → Answers (.memberScreed port p) s (b.fillWindow x.id)) ∧
      (∀ d, s.b.running x = some d → d.dtype = dt → Answers (.memberScreed port p) s ((b.fillWindow x.id).restContrib x.id)) ∧
      (∀ d, s.b.running x = some d → d.dtype ≠ dt → Answers (.memberScreed port p) s ((b.headEnds x.ctx 0xD).updColl x.id (fun y => { y with
        descs := y.descs.filter (fun r => decide (r.first + r.count ≤ d.firstChunk)), toSend := [] })))) ∧
    (∀ pr q w dt d, MemberTaken s.b port p 0x27 1 true x → x.params = some pr → x.screed = some (q, w, dt) → x.descOf c = some d →
      x.closed = false → (x.chunk c).sent → (leAt p.payload 1 1 ≠ 0 ∨ (x.chunk c).status = none) →
      let mask := beNat (slice p.payload 16 8)
      (s.b.ctxState x.ctx < 2 →
        Answers (.memberRecontrib port p) s (nb.updColl x.id (fun y => { y with recon := y.recon.insert c (y.recon.get c 0 ||| mask) }))) ∧
      (2 ≤ s.b.ctxState x.ctx → s.b.ctxState x.ctx ≤ 5 → (s.b.pidKey .ep (s.b.ctxPart x.ctx)).cur.isSome →
        State.reconWaits nb x' pr d c mask = none →
        exec (.memberRecontrib port p) s = .next (State.resendFrags { s with b := nb } x' pr d q w c mask))) ∧
    (∀ pr d, MemberTaken s.b port p 0x24 0 (Packet.dst p != 16383) x → x.params = some pr → x.descOf c = some d →
      ((x.chunk c).status.isSome → Answers (.memberResult port p) s (nb.sendAck x' c)) ∧
      ((x.chunk c).status = none → Packet.checkOk p → Packet.tailMarked p = false →
        let first := some ((x.chunk c).nackFrom.getD (s.b.now .ep))
        (Packet.collStatus p ≠ 0 → Packet.collStatus p ≠ 9 → Answers (.memberResult port p) s ((nb.updColl x.id (fun y =>
          y.setChunk c { (x.chunk c) with status := some (Packet.collStatus p), nackFrom := first, held := [] })).sendAck x' c)) ∧
        ((Packet.collStatus p = 0 ∨ Packet.collStatus p = 9) → f ≤ x.fragLast pr c → Packet.payloadBytes p = x.fragLen pr c f →
          bitOf (x.chunk c).mask f = false →
          exec (.memberResult port p) s = .next (State.writeFrag { s with b := nb.updColl x.id (fun y =>
            y.setChunk c { (x.chunk c) with nackFrom := first, carried := Packet.collStatus p }) } x.id c f (Packet.wire p))))) ∧
    (MemberTaken s.b port p 0x25 5 false x →
      Answers (.memberFreed port p) s ((((nb.updColl x.id (fun y => { y with fm := max x.fm c })).creditFixed x.id (max x.fm c)).fillWindow x.id).restContrib
        x.id)) ∧
    (MemberTaken s.b port p 0x26 3 false x →
      (x.closed → Answers (.memberClose port p) s (nb.memberCtl x' 0x25 7 0 [] [])) ∧
      (x.closed = false → ∃ t y, exec (.memberClose port p) s = .next t ∧ t.b.findColl x.id = some y ∧ y.closed ∧
        y.unroundFrom = c + 128 ∧ (∀ k, k ∈ y.unround ↔ c ≤ k ∧ k < c + 128 ∧ bitOf (beNat (slice p.payload 16 16)) (k - c)) ∧
        t.mem = s.mem)) ∧
    (MemberTaken s.b port p 0x25 6 false x →
      ∃ t, exec (.memberDone port p) s = .next t ∧ t.b.findColl x.id = none ∧ t.mem = s.mem)) ∧
  (∀ (s : State) (x : CollEnt) (pr : CollParams) (q : Int) (w dt k f : Nat) (rest : List (Nat × Nat)) (d : ProgDesc) (r : ContribRec),
    s.b.serving .ep → s.b.findColl x.id = some x → x.params = some pr → x.screed = some (q, w, dt) → x.closed = false →
    (s.b.pidKey .ep (s.b.ctxPart x.ctx)).cur.isSome → s.b.portUp .ep x.plane → x.recon = [] → s.b.running x = some d →
    x.toSend = (k, f) :: rest → f = x.fragLast pr k → s.b.ctxState x.ctx = 2 → (s.b.ctx x.ctx).engine.isSome → (s.b.ctx x.ctx).faulted = none →
    x.descOf k = some r →
    let at_ := State.fragAt x pr r k f
    let b := (s.b.reachVa x.ctx d.ring false at_.1).reachVa x.ctx d.ring true at_.2.1
    State.fragNeeds b x pr r (b.descAt x.ctx d.ring) k f = .inl none →
    ∃ t y, exec (.chunkSend x.id) s = .next t ∧ t.b.findColl x.id = some y ∧ (y.chunk k).sent ∧ (∀ e ∈ y.toSend, e.1 ≠ k) ∧
      t.mem = s.mem) ∧
  (∀ (s : State) (x : CollEnt) (pr : CollParams) (c : Nat), s.b.serving .ep → s.b.findColl x.id = some x → x.params = some pr →
    (x.chunk c).status = none → (x.chunk c).nackFrom.isSome → (x.chunk c).held = [] →
    ((x.chunk c).mask = 2 ^ (x.fragLast pr c + 1) - 1 → (∀ k ∈ (x.chunk c).writes, ∀ y ∈ s.b.ep.home.pend, y.id ≠ k.1) →
      Answers (.resultWriteDone x.id c) s ((s.b.updColl x.id (fun y =>
        y.setChunk c { (x.chunk c) with status := some (x.chunk c).carried, writes := [] })).sendAck x c)) ∧
    (∀ t0, (x.chunk c).nackFrom = some t0 → (x.chunk c).mask < 2 ^ (x.fragLast pr c + 1) - 1 → t0 + tResend ≤ s.b.now .ep →
      Answers (.resultNackTimer x.id c) s (if (x.chunk c).nacks < 3
        then (s.b.updColl x.id (fun y => y.setChunk c { (x.chunk c) with
          nacks := (x.chunk c).nacks + 1, nackFrom := some (s.b.now .ep) })).memberCtl x 0x26 1 c []
          (beBytes 8 (2 ^ (x.fragLast pr c + 1) - 1 - (x.chunk c).mask))
        else (s.b.updColl x.id (fun y => y.setChunk c { (x.chunk c) with status := some 0xA, held := [] })).sendAck x c))) ∧
  (∀ (s : State) (x : CollEnt) (pr : CollParams), s.b.serving .ep → s.b.findColl x.id = some x → x.params = some pr →
    x.lastPkt + 400000 * pr.timeout ≤ s.b.now .ep →
    ∃ t, exec (.memberSilenceTimeout x.id) s = .next t ∧ t.b.findColl x.id = none) ∧
  (∀ (s : State) (x : CollEnt), s.b.serving .ep → s.b.findColl x.id = some x → x.params = none → x.closed = false →
    x.resendAt + tResend ≤ s.b.now .ep →
    Answers (.collResendTimer .ep x.id) s ((s.b.updColl x.id (fun y => { y with resendAt := s.b.now .ep })).sendJoin x))

/-- R141: a PROD write that would put PROD more than a ring ahead of CONS is ignored and sets CMD_ERR with cause 0x5; any other is
recorded. -/
def Obligations.DoorbellRange : Prop :=
  ∀ (s : State) (n v : Nat) (d : CtxDesc), hasCtx n → Served s.b .ep → (s.b.ctx n).desc = some d → v < 2 ^ 32 →
    (d.ringSlots < (v + 2 ^ 32 - s.b.consOf n) % 2 ^ 32 → Answers (.prodWrite n v) s (s.b.cmdErr n 5)) ∧
    ((v + 2 ^ 32 - s.b.consOf n) % 2 ^ 32 ≤ d.ringSlots → ∃ t, exec (.prodWrite n v) s = .next t ∧ t.b.prodOf n = v ∧
      t.b.consOf n = s.b.consOf n ∧ t.b.ep = s.b.ep)

/-- TALLIES (R146-R149): a CFG write that sets VALID from 0 to 1 takes OWNER and zeroes COUNT, FIRED, ERR and FIRST_STATUS; a
change of OWNER while VALID is 1 is ignored; a TARGET write clears FIRED, and a tally fires only when VALID and COUNT has reached it. A
credit to a valid tally adds to COUNT modulo 2^32, sets FIRED when COUNT moves from not having reached TARGET to having reached it, and
with a status other than OK sets ERR and, where ERR was 0, FIRST_STATUS; one for a tally with VALID 0 leaves the tally as it is. -/
def Obligations.TallyRules : Prop :=
  (∀ (s : State) (n v : Nat), hasTally n → Served s.b .ep → s.b.tallyValid n = false → bitOf v 63 →
    ∃ t, exec (.tallyCfgWrite n v) s = .next t ∧ t.b.tallyValid n ∧ t.b.tallyOwner n = bits v 54 45 ∧ t.b.tallyCount n = 0 ∧
      t.b.fld .ep (offTallyCfg n) 10 5 = 0 ∧ t.b.fld .ep (offTallyCfg n) 1 0 = bits v 1 0 ∧ t.b.tallyTarget n = s.b.tallyTarget n) ∧
  (∀ (s : State) (n v : Nat), hasTally n → Served s.b .ep → s.b.tallyValid n →
    ∃ t, exec (.tallyCfgWrite n v) s = .next t ∧ t.b.tallyValid n = bitOf v 63 ∧ t.b.tallyOwner n = s.b.tallyOwner n ∧
      t.b.tallyCount n = s.b.tallyCount n) ∧
  (∀ (s : State) (n x : Nat), hasTally n → Served s.b .ep → x < 2 ^ 32 →
    ∃ t, exec (.tallyTargetWrite n x) s = .next t ∧ t.b.tallyTarget n = x ∧ t.b.tallyCount n = s.b.tallyCount n ∧
      t.b.flag .ep (offTallyCfg n) 10 = (s.b.tallyValid n && Blk.reached (s.b.tallyCount n) x)) ∧
  (∀ (b : Blk) (n k st : Nat), n < 4096 → st < 16 →
      (b.tallyValid n →
        (b.credit n k st).tallyCount n = (b.tallyCount n + k) % 2 ^ 32 ∧
        (b.credit n k st).flag .ep (offTallyCfg n) 10 = (b.flag .ep (offTallyCfg n) 10 ||
          (!Blk.reached (b.tallyCount n) (b.tallyTarget n) && Blk.reached (b.tallyCount n + k) (b.tallyTarget n))) ∧
        (b.credit n k st).flag .ep (offTallyCfg n) 9 = (b.flag .ep (offTallyCfg n) 9 || decide (st ≠ 0)) ∧
        (b.credit n k st).fld .ep (offTallyCfg n) 8 5 =
          (if st ≠ 0 ∧ b.flag .ep (offTallyCfg n) 9 = false then st else b.fld .ep (offTallyCfg n) 8 5)) ∧
      (b.tallyValid n = false → (b.credit n k st).reg .ep (offTallyCfg n) = b.reg .ep (offTallyCfg n) ∧
        (b.credit n k st).reg .ep (offTallyVal n) = b.reg .ep (offTallyVal n)))

/-! ## What the commands do -/

/-- ON AN EMPTY QUEUE a step answers a next state in which nothing but time has passed: on each part whose clocks run the elapsed time
by 1 ns (the model's choice, log 2), and every register reads as before. -/
def Obligations.EmptyQueueIdles : Prop :=
  ∀ (s : State), s.pending = [] →
    ∃ t, step s = .next t ∧ t.pending = [] ∧ t.fmem = s.fmem ∧ t.mem = s.mem ∧ t.b.out = s.b.out ∧
      (∀ d, t.b.now d = s.b.now d + (if s.b.clocked d then 1 else 0)) ∧
      (∀ d off, t.b.reg d off = s.b.reg d off) ∧ t.b.sw = s.b.sw ∧ t.b.ep = s.b.ep

/-- A COMMAND THAT NAMES A UNIT ITS PART DOES NOT HAVE faults (the model's choice, log 10); any other answers a next state: no command
of the table is refused or stops otherwise. -/
def Obligations.WellFormedCommandsGoOn : Prop :=
  ∀ (s : State) (i : Instr),
    (i.wellFormed → ∃ t, exec i s = .next t) ∧ (i.wellFormed = false → exec i s = .fault .noSuchUnit)

/-- NO COMMAND TOUCHES THE QUEUE: what waits after exec is what waited before. -/
def Obligations.QueueUntouched : Prop :=
  ∀ (s t : State) (i : Instr), exec i s = .next t → t.pending = s.pending

/-- R47, what the receiver of a DATA flit does: a flit with a good check and the next LSEQ becomes the last one accepted and an
acknowledgement is owed; any other leaves the last one accepted as it was, hands no packet on and owes a NAK. -/
def Obligations.DataFlitAccepted : Prop :=
  ∀ (s : State) (d : Dev) (port : Nat) (f : Flit), hasPort d port → s.b.portUp d port →
    ∃ t, exec (.dataFlitReceive d port f) s = .next t ∧
      (if Flit.fcrcOk f ∧ Flit.ftype f = 0 ∧ Flit.lseq f = ((s.b.port d port).rxLast + 1) % 4096 then
        (t.b.port d port).rxLast = Flit.lseq f ∧ (t.b.port d port).owedAck
      else
        (t.b.port d port).rxLast = (s.b.port d port).rxLast ∧ (t.b.port d port).owedNak ∧
        t.b.out = s.b.out ∧ (t.b.port d port).asm = (s.b.port d port).asm)

/-- R415: RETRAIN is refused in DISABLED, RETIRED and PATCHING, RETIRE in RETIRED and PATCHING, UNRETIRE in PATCHING only; a refused
command sets CMD_ERR and changes nothing else. -/
def Obligations.PortCommandRefused : Prop :=
  ∀ (s : State) (d : Dev) (port : Nat), hasPort d port → Served s.b d →
    let st := s.b.lstate d port
    let refused := fun (i : Instr) => Answers i s (s.b.setFlag d (offPort d port 8) 4 true)
    (st = 0 ∨ st = 4 ∨ st = 5 → refused (.retrain d port)) ∧
    (st = 4 ∨ st = 5 → refused (.portRetire d port)) ∧
    (st = 5 → refused (.unretire d port)) ∧
    (s.b.setFlag d (offPort d port 8) 4 true).flag d (offPort d port 8) 4 ∧
    (∀ off, off ≠ offPort d port 8 → (s.b.setFlag d (offPort d port 8) 4 true).reg d off = s.b.reg d off)

/-- WHAT A REQUEST DOES TO THE ACCELERATOR'S MEMORY at the end point's home (R64, R68-R70, R115), where no line of it is uncorrectable. On
its arrival nothing: the home holds it with the access it stands for. When the accelerator has answered, a READ has read, a WRITE has
stored its bytes, and an atomic the new value of R70; every other byte reads as before, and fabric memory is untouched. Where the
accelerator answers with an error, a read and an atomic leave every byte, and a WRITE every line either as it was or with all its new
bytes (R69). -/
def Obligations.EndPointHomeMemory : Prop :=
  (∀ (s : State) (port : Nat) (p : Packet) (ecc : Ecc), HomeCarries s .ep port p (s.b.windowOk .ep p) (Packet.formOk p) →
    ecc.ue = [] → s.b.ep.badMem = [] →
    let held := fun (i : Instr) (op : HomeOp) => ∃ t x, exec i s = .next t ∧ t.fmem = s.fmem ∧ t.mem = s.mem ∧
      t.b.ep.home.pend = s.b.ep.home.pend ++ [x] ∧ x.pkt = p ∧ x.hop = op ∧ x.own = none ∧ x.isLocal = false
    let off := Packet.offset p
    let n := Packet.reqBytes p
    let atomic := HomeOp.rmw off (Packet.opcode p) (Packet.opq p) n (slice p.payload 0 (2 * n))
    (Packet.opcode p = 0x1 → held (.read .ep port p ecc) (.read off (Packet.rdBytes p))) ∧
    (Packet.opcode p = 0x2 → held (.write .ep port p ecc) (.write off ((Packet.wire p).take (Packet.payloadBytes p)) false)) ∧
    (Packet.opcode p = 0x4 → held (.fetchAdd .ep port p ecc) atomic) ∧
    (Packet.opcode p = 0x5 → held (.swap .ep port p ecc) atomic) ∧
    (Packet.opcode p = 0x6 → held (.compareSwap .ep port p ecc) atomic) ∧
    (Packet.opcode p = 0x7 → held (.fetchAnd .ep port p ecc) atomic) ∧
    (Packet.opcode p = 0x8 → held (.fetchOr .ep port p ecc) atomic) ∧
    (Packet.opcode p = 0x9 → held (.fetchXor .ep port p ecc) atomic) ∧
    (Packet.opcode p = 0xA → held (.fetchMin .ep port p ecc) atomic) ∧
    (Packet.opcode p = 0xB → held (.fetchMax .ep port p ecc) atomic)) ∧
  (∀ (s : State) (x : PendAns), s.b.ep.home.pend = [x] → x.ucie → x.own = none → x.isLocal = false → s.b.ep.badMem = [] →
    s.b.ep.home.held = [] → s.b.ep.home.waiting = [] →
    let stores := fun (ok : Bool) (off : Nat) (bytes : List Byte) => ∃ t, exec (.homeAccessAnswer x.id ok) s = .next t ∧ t.fmem = s.fmem ∧
      ∀ a, t.mem.get a 0#8 = if off ≤ a ∧ a < off + bytes.length then bytes.getD (a - off) 0#8 else s.mem.get a 0#8
    match x.hop with
    | .done _ _ => True
    | .read off _ => stores true off [] ∧ stores false off []
    | .write off bytes true => stores true off bytes ∧ stores false off []
    | .write off bytes false => stores true off bytes ∧
      ∃ t, exec (.homeAccessAnswer x.id false) s = .next t ∧ t.fmem = s.fmem ∧
        ∀ l, (∀ a, a / 64 = l → t.mem.get a 0#8 = s.mem.get a 0#8) ∨ (∀ a, a / 64 = l → t.mem.get a 0#8 =
          if off ≤ a ∧ a < off + bytes.length then bytes.getD (a - off) 0#8 else s.mem.get a 0#8)
    | .rmw off op q n opnd =>
      stores true off (leBytes n (atomicNew op q n (leNat ((upto n).map (fun j => s.mem.get (off + j) 0#8))) (leNat opnd))) ∧ stores false off [])

/-- R70, the new value of each integer atomic of a size in bytes, for an old value that fits it. -/
def Obligations.AtomicNewValues : Prop :=
  ∀ (sz old opnd : Nat), (sz = 4 ∨ sz = 8) → old < 2 ^ (8 * sz) → opnd < 2 ^ (8 * sz) →
    (∀ q, q < 4 → atomicNew 4 q sz old opnd = (old + opnd) % 2 ^ (8 * sz)) ∧
    (∀ q, q < 4 → atomicNew 5 q sz old opnd = opnd) ∧
    (∀ q, q < 4 → atomicNew 7 q sz old opnd = old &&& opnd) ∧
    (∀ q, q < 4 → atomicNew 8 q sz old opnd = old ||| opnd) ∧
    (∀ q, q < 4 → atomicNew 9 q sz old opnd = old ^^^ opnd) ∧
    (∀ q, q = 2 ∨ q = 3 → atomicNew 10 q sz old opnd = min old opnd ∧ atomicNew 11 q sz old opnd = max old opnd) ∧
    (∀ q, q = 0 ∨ q = 1 →
      toSigned (8 * sz) (atomicNew 10 q sz old opnd) = min (toSigned (8 * sz) old) (toSigned (8 * sz) opnd) ∧
      toSigned (8 * sz) (atomicNew 11 q sz old opnd) = max (toSigned (8 * sz) old) (toSigned (8 * sz) opnd)) ∧
    (∀ swp, swp < 2 ^ 64 → sz = 8 → atomicNew 6 3 8 old (opnd + 2 ^ 64 * swp) = if old = opnd then swp else old)

/-- R71: FP32 FETCH_ADD gives the quiet NaN for a NaN and for opposite infinities, +0 for an exact zero sum but for two negative
zeros, and otherwise the exact sum of the finite values (subnormals as they are, in units of 2^-149) rounded once: to the nearest
finite value, of two equally near ones to the even one, and to an infinity of its sign from (2^25 - 1) x 2^252 units on. A finite value
leaves an infinity as it is; the order of the two operands does not matter. -/
def Obligations.Fp32AddRules : Prop :=
  (∀ x y, x < 2 ^ 32 → y < 2 ^ 32 → fp32Add x y = fp32Add y x) ∧
  (∀ x y, bits x 30 23 = 255 → bits x 22 0 ≠ 0 → fp32Add x y = 0x7FC00000) ∧
  fp32Add 0x7F800000 0xFF800000 = 0x7FC00000 ∧
  (∀ x y, bits x 30 0 = 0x7F800000 → bits y 30 23 ≠ 255 ∨ y = x → fp32Add x y = x) ∧
  (∀ x y, bits x 30 23 ≠ 255 → bits y 30 23 ≠ 255 → fp32Units x + fp32Units y = 0 →
    fp32Add x y = if x = 0x80000000 ∧ y = 0x80000000 then 0x80000000 else 0) ∧
  (∀ x y, bits x 30 23 ≠ 255 → bits y 30 23 ≠ 255 → fp32Units x + fp32Units y ≠ 0 →
    fp32Add x y = fp32Round (decide (fp32Units x + fp32Units y < 0)) (fp32Units x + fp32Units y).natAbs) ∧
  (∀ (neg : Bool) (v : Nat), (2 ^ 25 - 1) * 2 ^ 252 ≤ v → fp32Round neg v = if neg then 0xFF800000 else 0x7F800000) ∧
  (∀ (neg : Bool) (v : Nat), v < (2 ^ 25 - 1) * 2 ^ 252 →
    bits (fp32Round neg v) 30 23 ≠ 255 ∧ bitOf (fp32Round neg v) 31 = neg ∧
    (∀ z, bits z 30 23 ≠ 255 →
      (fp32Units (fp32Round neg v) - (if neg then -(v : Int) else (v : Int))).natAbs ≤
        (fp32Units z - (if neg then -(v : Int) else (v : Int))).natAbs ∧
      ((fp32Units (fp32Round neg v) - (if neg then -(v : Int) else (v : Int))).natAbs =
        (fp32Units z - (if neg then -(v : Int) else (v : Int))).natAbs →
        fp32Units z = fp32Units (fp32Round neg v) ∨ fp32Round neg v % 2 = 0)))

/-- R78 for a topcoat that waits for nothing: FIRST_SEQ equal to its own SEQ on a stream without a record makes the access that writes the
flag at once. When the accelerator has answered it, the flag is written and the stream's W becomes its SEQ; answered with an error, the
flag stays as it was and so does W (the model's choice, log 141). -/
def Obligations.TopcoatWritesFlag : Prop :=
  (∀ (s : State) (port : Nat) (p : Packet) (ecc : Ecc), HomeCarries s .ep port p (s.b.windowOk .ep p) (Packet.formOk p) →
    Packet.opcode p = 3 → ecc.ue = [] → s.b.ep.badMem = [] → s.b.ep.home.held = [] →
    s.b.ep.home.streams.any (fun r => r.key = Packet.stream p) = false → beNat (slice p.payload 0 2) = Packet.seq p →
    ∃ t x, exec (.topcoatWrite .ep port p ecc) s = .next t ∧ t.mem = s.mem ∧ t.b.ep.home.pend = s.b.ep.home.pend ++ [x] ∧
      x.hop = .write (Packet.offset p) (slice p.payload 8 (Packet.reqBytes p)) true ∧ x.key = Packet.stream p ∧ x.seq = Packet.seq p ∧
      t.b.streamW .ep (Packet.stream p) = some ((Packet.seq p + 65535) % 65536)) ∧
  (∀ (s : State) (x : PendAns) (off w : Nat) (bytes : List Byte), s.b.ep.home.pend = [x] → x.ucie → x.own = none → x.isLocal = false →
    x.hop = .write off bytes true → s.b.ep.badMem = [] → s.b.ep.home.held = [] → s.b.ep.home.waiting = [] →
    s.b.ep.home.streams = [{ key := x.key, w := some w, applied := [] }] → x.seq = (w + 1) % 65536 →
    (∃ t, exec (.homeAccessAnswer x.id true) s = .next t ∧ t.b.streamW .ep x.key = some x.seq ∧
      ∀ a, t.mem.get a 0#8 = if off ≤ a ∧ a < off + bytes.length then bytes.getD (a - off) 0#8 else s.mem.get a 0#8) ∧
    (∃ t, exec (.homeAccessAnswer x.id false) s = .next t ∧ t.b.streamW .ep x.key = some w ∧ t.mem = s.mem))

/-- R78 for a topcoat that waits: with an earlier SEQ still missing it is held, and no byte of memory changes. -/
def Obligations.TopcoatHeld : Prop :=
  ∀ (s : State) (port : Nat) (p : Packet) (ecc : Ecc), HomeCarries s .ep port p (s.b.windowOk .ep p) (Packet.formOk p) →
    Packet.opcode p = 3 → s.b.ep.home.held = [] → s.b.ep.home.streams.any (fun r => r.key = Packet.stream p) = false →
    beNat (slice p.payload 0 2) ≠ Packet.seq p →
    ∃ t, exec (.topcoatWrite .ep port p ecc) s = .next t ∧ t.mem = s.mem ∧ t.fmem = s.fmem ∧
      t.b.ep.home.held.map (fun h => (h.key, h.seq)) = [(Packet.stream p, Packet.seq p)]

/-- A REPEAT CHANGES NO MEMORY (R61, R93): a sound request that finds its entry leaves both memories as they were. -/
def Obligations.RepeatChangesNoMemory : Prop :=
  ∀ (s t : State) (d : Dev) (port : Nat) (p : Packet) (ecc : Ecc) (e : DsEnt),
    s.b.soundAt d p → s.b.findDs d (Packet.stream p) (Packet.seq p) = some e →
    (∀ i, i ∈ [Instr.read d port p ecc, .write d port p ecc, .topcoatWrite d port p ecc, .fetchAdd d port p ecc, .swap d port p ecc,
        .compareSwap d port p ecc, .fetchAnd d port p ecc, .fetchOr d port p ecc, .fetchXor d port p ecc, .fetchMin d port p ecc,
        .fetchMax d port p ecc, .tallyInc d port p] → exec i s = .next t →
      (∀ a, t.mem.get a 0#8 = s.mem.get a 0#8) ∧ (∀ l, (t.line l).data = (s.line l).data))

/-- R117: a write that sets VALID of an island entry is refused for node 16,383, for the end point's own node and for a node that
another valid entry names: VALID stays 0 and CFG_ERR is set. R139: a write that sets VALID of node-table entry 16,383 is refused and
the entry keeps its previous value. -/
def Obligations.TableEntryRefused : Prop :=
  (∀ (s : State) (n v : Nat), hasIsland n → Served s.b .ep → s.b.islandValid n = false → bitOf v 63 →
    s.b.ep.home.waiting = [] →
    (bits v 13 0 = 16383 ∨ bits v 13 0 = s.b.ep.node ∨ ∃ m, m < 3 ∧ m ≠ n ∧ s.b.islandValid m ∧ s.b.islandNode m = bits v 13 0) →
    ∃ t, exec (.islandWrite n v) s = .next t ∧ t.b.islandValid n = false ∧ t.b.flag .ep (offIsland n) 62 ∧
      t.b.ep = s.b.ep ∧ t.mem = s.mem ∧ (∀ off, off ≠ offIsland n → t.b.reg .ep off = s.b.reg .ep off)) ∧
  (∀ (s : State) (v : Nat), Served s.b .ep → bitOf v 31 → exec (.nodeEntryWrite 16383 v) s = .next s)

/-- ACQUIRE OF FABRIC SCOPE (R108) behind no release of its engine: afterwards no far-cache line of the context's partition is left in its range; at chip and island
scope the far cache is as before. -/
def Obligations.AcquireInvalidates : Prop :=
  ∀ (s : State) (n eng : Nat) (scope : Scope) (range : AcqRange), hasCtx n → s.b.serving .ep → s.b.accepts n →
    scope ≠ .engine → rangeOk range → s.b.relsOf n eng = [] →
    ∃ t, exec (.acquire n eng scope range) s = .next t ∧
      (scope = .fabric → ∀ l ∈ t.b.ep.fc, l.part = s.b.ctxPart n →
        match range with
        | .none => True
        | .all => False
        | .block addr k => l.node ≠ addrNode addr ∨ 64 * l.line + 64 ≤ addrOff addr ∨ addrOff addr + 2 ^ k ≤ 64 * l.line) ∧
      (scope ≠ .fabric → t.b.ep.fc = s.b.ep.fc) ∧ (∀ l ∈ s.b.ep.fc, l.part ≠ s.b.ctxPart n → l ∈ t.b.ep.fc)

/-- R129, R66: a direct access that names a context that is not resident, or has an unsupported size or alignment, completes with
UNSUPPORTED and nothing is sent: no request is added, and no port has more to send. In a context that aborts or is aborted it completes
with ABORTED (the model's reading of R11 and R12, log 122). -/
def Obligations.DirectAccessRefused : Prop :=
  ∀ (s : State) (n eng va size : Nat) (bad : Bool), hasCtx n → s.b.serving .ep →
    let refused := fun (st : Nat) => ∃ t, exec (.directLoad n eng va size bad) s = .next t ∧ t.b.out = .ucie (.answer n eng st []) :: s.b.out ∧
      t.b.ep.reqs = s.b.ep.reqs ∧ (∀ d port, t.b.port d port = s.b.port d port) ∧ t.mem = s.mem ∧ t.fmem = s.fmem
    (s.b.ctxState n < 2 → refused 0xD) ∧
    (s.b.accepts n → (directSize size = false ∨ va % size ≠ 0) → refused 0xD) ∧
    (6 ≤ s.b.ctxState n → directSize size → va % size = 0 → refused 8)

/-- R90: a context whose tag quota is 0 issues no READ and no fetching atomic. Each such request completes with UNSUPPORTED, and nothing
is sent (a load that the far cache serves sends no READ). A COPY whose source READ may not be issued ends: the write that waits for the
data is credited with the status. -/
def Obligations.QuotaZeroUnsupported : Prop :=
  (∀ (s : State) (r : Req) (t : Nat) (ecc : Ecc) (bad : Bool) (d : CtxDesc), hasTag t → s.b.serving .ep → s.b.ep.reqs = [r] →
    r.sent = false → s.b.mayIssue r → r.feeds = [] → s.b.ep.rels = [] → r.va = none → s.b.ep.fc = [] →
    (s.b.ctx r.ctx).desc = some d → d.tagQuota = 0 → s.b.granted r.ctx r.node r.off r.span → r.off + r.span ≤ 2 ^ 44 →
    (∀ eng skip size fill, r.op = 1 → r.why = .load eng skip size fill →
      ∃ u, exec (.requestIssue r.id t ecc bad) s = .next u ∧ u.b.ep.reqs = [] ∧ u.b.out = .ucie (.answer r.ctx eng 0xD []) :: s.b.out ∧
        (∀ d port, u.b.port d port = s.b.port d port)) ∧
    (∀ eng scope range, r.op = 1 → r.why = .acqLoad eng scope range →
      ∃ u, exec (.requestIssue r.id t ecc bad) s = .next u ∧ u.b.ep.reqs = [] ∧ u.b.out = .ucie (.answer r.ctx eng 0xD []) :: s.b.out ∧
        (∀ d port, u.b.port d port = s.b.port d port)) ∧
    (∀ eng, 4 ≤ r.op → r.op ≤ 0xB → (r.why = .atomic eng ∨ r.why = .relAtomic eng) →
      ∃ u, exec (.requestIssue r.id t ecc bad) s = .next u ∧ u.b.ep.reqs = [] ∧ u.b.out = .ucie (.answer r.ctx eng 0xD []) :: s.b.out ∧
        (∀ d port, u.b.port d port = s.b.port d port))) ∧
  (∀ (s : State) (r w : Req) (t : Nat) (ecc : Ecc) (bad : Bool) (d : CtxDesc) (ring wid skip : Nat), hasTag t → s.b.serving .ep →
    s.b.ep.reqs = [r, w] → r.sent = false → s.b.mayIssue r → r.feeds = [] → r.va = none → r.why = .copyRead ring wid skip →
    r.op = 1 → r.node ≠ s.b.ep.node → (s.b.ctx r.ctx).desc = some d → d.tagQuota = 0 →
    s.b.granted r.ctx r.node r.off r.span → r.off + r.span ≤ 2 ^ 44 →
    w.id ≠ r.id → w.sent = false → w.ctx = r.ctx → w.why = .prog ring → w.feeds = [r.id] →
    ∃ u, exec (.requestIssue r.id t ecc bad) s = .next u ∧ u.b.ep.reqs = [] ∧ (∀ d port, u.b.port d port = s.b.port d port) ∧
      (w.cplEn → w.tally < 4096 → s.b.owns w.ctx w.tally →
        u.b.flag .ep (offTallyCfg w.tally) 9 ∧
        (s.b.flag .ep (offTallyCfg w.tally) 9 = false → u.b.fld .ep (offTallyCfg w.tally) 8 5 = 0xD)))

/-- R155: a request counted by an invalidation is never retried: neither becomes its retry due, nor is one sent. One that lacks a good
response reaches its outcome when 4 L have passed since its first issue (R60): CHECK_FAIL where a response failed its CHECK,
LIFETIME_EXPIRED otherwise; the load that waits for it is answered so. -/
def Obligations.CountedNeverRetried : Prop :=
  ∀ (s : State) (r : Req), s.b.ep.reqs = [r] → r.counted →
    exec (.retryDue r.id) s = .next s ∧ exec (.retrySend r.id) s = .next s ∧
    (r.sent → r.first + 4 * lifetime r.life ≤ s.b.now .ep →
      Answers (.outcomeExpiry r.id) s (s.b.outcome r (if r.checkBad then 0xA else 0x7) []) ∧
      (∀ eng skip size fill, r.why = .load eng skip size fill → ∃ t, exec (.outcomeExpiry r.id) s = .next t ∧ t.b.ep.reqs = [] ∧
        t.b.out = .ucie (.answer r.ctx eng (if r.checkBad then 0xA else 0x7) []) :: s.b.out))

/-- R136: the end point accepts a command only in the states listed for it; any other write sets CMD_ERR with cause 0x1 and changes
nothing else (LOAD, PREEMPT, PREEMPT_NOW, RESUME_RETRY, RESUME_SKIP, ABORT, RELEASE; ACTIVATE likewise). -/
def Obligations.ContextCommandRefused : Prop :=
  ∀ (s : State) (n : Nat), hasCtx n → Served s.b .ep →
    let refused := fun (i : Instr) => Answers i s (s.b.cmdErr n 1)
    (∀ l, s.b.ctxState n ≠ 0 → s.b.ctxState n ≠ 7 → refused (.activate n l)) ∧
    (∀ l, s.b.ctxState n ≠ 1 → refused (.load n l)) ∧
    (s.b.ctxState n ≠ 2 → s.b.ctxState n ≠ 4 → refused (.preempt n)) ∧
    (s.b.ctxState n ≠ 2 → s.b.ctxState n ≠ 3 → s.b.ctxState n ≠ 4 → refused (.preemptNow n)) ∧
    (s.b.ctxState n ≠ 4 → refused (.resumeRetry n) ∧ refused (.resumeSkip n)) ∧
    (s.b.ctxState n < 1 ∨ 5 < s.b.ctxState n → refused (.ctxAbort n)) ∧
    (s.b.ctxState n ≠ 7 → s.b.ctxState n ≠ 1 → refused (.contextRelease n)) ∧
    (s.b.cmdErr n 1).flag .ep (offCtxState n) 16 ∧ (s.b.cmdErr n 1).fld .ep (offCtxState n) 20 17 = 1 ∧
    (s.b.cmdErr n 1).ctxState n = s.b.ctxState n ∧ (s.b.cmdErr n 1).ep = s.b.ep ∧ (s.b.cmdErr n 1).out = s.b.out

/-- R145: the writes that the cut of a range yields are as many as count_writes says, they lie one behind the other from the first byte
to the last, and none crosses a 4,096 B boundary. -/
def Obligations.CutMatchesCount : Prop :=
  ∀ (d n : Nat), 0 < n →
    (cutWrites d n).length = countWrites d n ∧
    ((cutWrites d n).map (fun w => w.2.1)).sum = n ∧
    (∀ w ∈ cutWrites d n, d ≤ w.1 ∧ 0 < w.2.1 ∧ w.1 + w.2.1 ≤ d + n ∧ w.1 / 4096 = (w.1 + w.2.1 - 1) / 4096 ∧
      (if w.2.2 then w.1 % 256 = 0 ∧ w.2.1 % 256 = 0 else w.1 / 32 = (w.1 + w.2.1 - 1) / 32))

/-- R249, R469: a request of a partition the ingress port does not carry is answered at that port with PARTITION_MISMATCH, and one of a
partition that is being aborted with ABORTED: one packet more waits in the port's answer queue, and the request enters no other. -/
def Obligations.RequestRefusedAtIngress : Prop :=
  ∀ (s : State) (port : Nat) (p : Packet), hasPort .sw port → s.b.serving .sw → s.b.portUp .sw port →
    Packet.whole p → s.b.sw.lanes.get port [] = [] → Packet.hcrcOk p → Packet.linkLocal p = false → Packet.malformed p = false →
    Packet.plane p = s.b.swPlane → Packet.hops p ≠ 5 → s.b.lateAt .sw p = false → Blk.isRequest p → s.b.answerFull port = false →
    (s.b.pidAborted (Packet.part p) ∨ s.b.carries port (Packet.part p) = false) →
    ∃ t c, exec (.switchIngress port p) s = .next t ∧ t.b.sw.copies = s.b.sw.copies ++ [c] ∧
      c.pkt = s.b.answerPacket p (if s.b.pidAborted (Packet.part p) then 8 else 4) ∧
      (∀ k, k ≠ { src := srcAnswer, eq := port, qset := s.b.qsetOf (Packet.part p), tc := 2 } → t.b.voq k = s.b.voq k) ∧
      Packet.dst c.pkt = Packet.src p ∧ Packet.tag c.pkt = Packet.tag p

/-- R37: a switch increments HOPS when it forwards a packet: every copy an arrival leaves in the packet buffer, but for the switch's own
answers, has the HOPS of the packet plus 1. It discards a packet that arrives with HOPS equal to 5: no copy of it is stored and no
answer sent. -/
def Obligations.HopsCounted : Prop :=
  (∀ (s t : State) (port : Nat) (p : Packet), Packet.hops p < 5 → s.b.sw.lanes.get port [] = [] →
    exec (.switchIngress port p) s = .next t →
    ∀ c ∈ t.b.sw.copies, (∃ c' ∈ s.b.sw.copies, c'.id = c.id) ∨ c.where_ = .answer ∨ Packet.hops c.pkt = Packet.hops p + 1) ∧
  (∀ (s t : State) (port : Nat) (p : Packet), Packet.hcrcOk p → Packet.linkLocal p = false → Packet.hops p = 5 →
    s.b.sw.lanes.get port [] = [] → exec (.switchIngress port p) s = .next t → t.b.sw.copies = s.b.sw.copies ∧ t.b.sw.voqs = s.b.sw.voqs ∧ t.b.out = s.b.out ∧ t.mem = s.mem ∧ t.fmem = s.fmem)

/-- STORE THEN LOAD THROUGH BAR2 (R116, R320, R325): with a current key and no error, a read of the bytes just written gives them back,
whatever part of its lines they cover. -/
def Obligations.FabricReadBack : Prop :=
  ∀ (s : State) (i off : Nat) (bytes : List Byte) (k : KeyVal), s.b.inRun .sw → s.bar2Waits off bytes.length = false →
    s.b.bar2Part off bytes.length = some i → (s.b.keyEnt .sw i).cur = some k → (∀ l, s.b.ueFind l = none) → s.b.sw.badLines = [] →
    (∀ l, (s.line l).init ∨ ((s.line l).gen = (s.b.keyEnt .sw i).g ∧ (s.line l).data.length = 64)) →
    ∃ t u, exec (.bar2Write off bytes { errs := [], moved := [] }) s = .next t ∧
      exec (.bar2Read off bytes.length { errs := [], moved := [] }) t = .next u ∧ u.b.out = .bar2Data off bytes :: s.b.out

/-- FRAME OF A BAR2 WRITE: a line that holds none of the bytes addressed is the same after it, whatever the write meets; the
accelerator's memory too. -/
def Obligations.Bar2WriteFrame : Prop :=
  ∀ (s t : State) (off : Nat) (bytes : List Byte) (ecc : Ecc), exec (.bar2Write off bytes ecc) s = .next t →
    t.mem = s.mem ∧ ∀ l, (64 * l + 64 ≤ off ∨ off + bytes.length ≤ 64 * l ∨ bytes = []) → t.line l = s.line l

/-- R320, R322: with EN 0, a masked partition, a window that is not READY or bytes outside it, a BAR2 write is dropped and counted in
WR_REFUSED, a BAR2 read completes with Completer Abort and is counted in RD_REFUSED; both counters saturate. -/
def Obligations.Bar2Refused : Prop :=
  ∀ (s : State) (off : Nat) (bytes : List Byte) (ecc : Ecc), s.b.inRun .sw → s.bar2Waits off bytes.length = false →
    (s.b.flag .sw offBar2Sel 63 = false ∨ s.b.partMasked (s.b.fld .sw offBar2Sel 5 0) ∨ s.b.winReady (s.b.fld .sw offBar2Sel 5 0) = false ∨
      off < 64 * s.b.winFirst (s.b.fld .sw offBar2Sel 5 0) ∨ 64 * (s.b.winLast (s.b.fld .sw offBar2Sel 5 0) + 1) < off + bytes.length) →
    (∃ t, exec (.bar2Write off bytes ecc) s = .next t ∧ t.fmem = s.fmem ∧ t.mem = s.mem ∧ t.b.out = s.b.out ∧
      t.b.fld .sw offBar2Stat 63 32 = min (s.b.fld .sw offBar2Stat 63 32 + 1) (2 ^ 32 - 1) ∧
      t.b.fld .sw offBar2Stat 31 0 = s.b.fld .sw offBar2Stat 31 0) ∧
    (∃ t, exec (.bar2Read off bytes.length ecc) s = .next t ∧ t.fmem = s.fmem ∧ t.mem = s.mem ∧ t.b.out = .bar2Abort off :: s.b.out ∧
      t.b.fld .sw offBar2Stat 31 0 = min (s.b.fld .sw offBar2Stat 31 0 + 1) (2 ^ 32 - 1) ∧
      t.b.fld .sw offBar2Stat 63 32 = s.b.fld .sw offBar2Stat 63 32)

/-- R318: a READ of an INIT line returns zero bytes and needs no key; any write of a line clears INIT and stores it under the current
generation; a partial write takes an INIT line's old content as zeros. -/
def Obligations.InitLines : Prop :=
  ∀ (s : State) (i l : Nat) (x : Line), x.init →
    s.b.lineData i l x = zeros 64 ∧
    (s.b.ueFind l = none → s.b.sw.badLines = [] → s.b.lineStatus i { errs := [], moved := [] } l x = 0) ∧
    (∀ data, ((s.storeLine i l data).line l).init = false ∧ ((s.storeLine i l data).line l).gen = (s.b.keyEnt .sw i).g)

/-- R357 (with R355, R358, R367): a load that fails a check changes nothing in force. The lath register and its log, fabric memory and
every register of the switch but SW_LATH_STATUS, SW_LATH_INFO, DB_STATUS and the PBA read as before, and so RDY_BSY stays as it was;
STATE returns to IN_FORCE with an image in force and to IDLE without one, and code, section and record are reported. -/
def Obligations.FailedLoadChangesNothing : Prop :=
  ∀ (s : State) (j : LathJob) (raw : List Byte) (c sect record : Nat), s.b.inRun .sw → s.b.sw.lath.job = some j →
    j.image = none → s.b.inSupplyHold = false →
    (s.b.setLathState 2).checkImage (padTo (msgArg j.msg 8 4) raw) (msgArg j.msg 8 4) = some (c, sect, record) →
    ∃ t, exec (.lathImageFetched (some raw)) s = .next t ∧ t.fmem = s.fmem ∧ t.mem = s.mem ∧ t.b.ep = s.b.ep ∧
      t.b.sw = { s.b.sw with lath := { s.b.sw.lath with job := none } } ∧
      (∀ off, off ≠ offLathStatus → off ≠ offLathInfo → off ≠ offDbStatus → off ≠ offMsixPba → t.b.reg .sw off = s.b.reg .sw off) ∧
      t.b.fld .sw offLathStatus 3 0 = (if s.b.imageInForce then 5 else 0) ∧ t.b.imageInForce = s.b.imageInForce ∧
      t.b.pinRdyBsy .sw = s.b.pinRdyBsy .sw ∧ t.b.fld .sw offLathStatus 63 48 = c % 2 ^ 16 ∧ t.b.fld .sw offLathStatus 47 40 = sect % 2 ^ 8 ∧
      t.b.fld .sw offLathStatus 39 8 = record % 2 ^ 32 ∧ t.b.fld .sw offLathInfo 63 32 = s.b.fld .sw offLathInfo 63 32 ∧
      (t.b.core .sw).mbox.acks = (s.b.core .sw).mbox.acks ++ [{ token := msgToken j.msg, msg := msgCode j.msg, code := c, resp := [] }]

/-- R390, R383, R510: until IDENT_READY is set every SPDM request other than GET_VERSION and GET_CAPABILITIES, Genard commands among
them, is answered with ERROR ResponseNotReady, and after a failed derivation or in the recovery state with ERROR Unspecified; no
register, no key entry, no session and no memory changes. R393: a ninth KEY_EXCHANGE is answered with ERROR SessionLimitExceeded; nothing
else changes. -/
def Obligations.SpdmRefused : Prop :=
  (∀ (s : State) (i : Instr) (d : Dev), spdmPart i = some d → s.b.clocked d →
      (s.b.recovery d ∨ s.b.flag d offSecState 2 → Answers i s (s.b.spdmErr d 5)) ∧
      (s.b.recovery d = false → s.b.flag d offSecState 2 = false → s.b.flag d offSecState 3 = false →
        ∃ t, exec i s = .next t ∧ t.b.out = .doe d (.error 0x42) :: s.b.out ∧ t.fmem = s.fmem ∧ t.mem = s.mem ∧
          (∀ e off, t.b.reg e off = s.b.reg e off) ∧ (∀ e n, t.b.keyEnt e n = s.b.keyEnt e n) ∧
          (t.b.spdm d).sessions = (s.b.spdm d).sessions ∧ t.b.sw = s.b.sw ∧ t.b.ep = s.b.ep)) ∧
  (∀ (s : State) (d : Dev), SpdmReady s.b d → (s.b.spdm d).algs → (s.b.core d).certOk → 8 ≤ (s.b.spdm d).sessions.length →
      Answers (.keyExchange d) s (s.b.spdmErr d 0xA))

/-- R396: once a partition has a binding, every command with a PART_ID is refused with NOT_BOUND from any other requester, whose
partition is in force at the switch; it changes nothing but the moment of the session's last message. -/
def Obligations.NotBoundRefused : Prop :=
  ∀ (s : State) (d : Dev) (h : GenardHead) (x : Session) (n : Nat), s.b.keyNo d (Blk.reqPart h.req) = some n →
    (s.b.keyEnt d n).agent.isSome → (s.b.keyEnt d n).agent ≠ x.agent →
    let refused := fun (i : Instr) (cmd args : Nat) => GenardIn s.b d h x cmd args →
      ∃ t, exec i s = .next t ∧ t.b.out = .doe d (.genard cmd 2 (Blk.reqPart h.req) []) :: s.b.out ∧ (∀ m, t.b.keyEnt d m = s.b.keyEnt d m) ∧
        t.b.sw = s.b.sw ∧ t.b.ep = s.b.ep ∧ t.fmem = s.fmem ∧ t.mem = s.mem
    ((d = .sw → leAt (Blk.reqArgs h.req) 0 8 = 0) →
      (d = .ep → leAt (Blk.reqArgs h.req) 0 8 < 2 ∧ leAt (Blk.reqArgs h.req) 16 64 = 0) → refused (.install d h) 1 80) ∧
    refused (.makeCurrent d h) 2 8 ∧
    refused (.retire d h) 3 0 ∧
    (d = .sw → refused (.retireForce .sw h) 4 0 ∧ refused (.readCounters .sw h) 0x11 0 ∧ refused (.readEvents .sw h) 0x13 0 ∧
      (s.b.slotOutside (leAt (Blk.reqArgs h.req) 0 2) n = false → refused (.readSlot .sw h) 0x12 2)) ∧
    (d = .ep → refused (.clear .ep h) 5 0) ∧
    refused (.partStatus d h) 0x10 0

/-- R195: from the sum of any at most 16,384 images (R184, R191) the root recovers the count of saturated contributions and the sum of
images, exactly; a chunk with a count that is not 0 has saturated and completes with RANGE; only the sums of images enter the final
rounding. The accumulator keeps within W + 32 bits (R191). -/
def Obligations.ReductionSumsRecovered : Prop :=
  (∀ (code : Nat) (q : Int) (l : List Elem), l.length ≤ 16384 →
    let w := windowBits code
    let images := l.map (toImage q w)
    let p := (images.map (imageSum w)).sum
    let c : Int := (p + 2 ^ (w + 15)) / 2 ^ (w + 16)
    c = ((images.filter (fun x => x.2)).length : Int) ∧ p - c * 2 ^ (w + 16) = (images.map Prod.fst).sum ∧
      satCount w p = c ∧ imageTotal w p = p - c * 2 ^ (w + 16) ∧ p.natAbs < 2 ^ (w + 31)) ∧
  (∀ (dtype w : Nat) (acc : Tbl Int) (count : Nat) (e : Int) (d i : Nat), i < count → satCount w (acc.get i 0) ≠ 0 →
    (roundChunk dtype w acc count e d).2) ∧
  (∀ (dtype w : Nat) (acc acc' : Tbl Int) (count : Nat) (e : Int) (d : Nat),
    (∀ i, i < count → imageTotal w (acc.get i 0) = imageTotal w (acc'.get i 0)) →
    (roundChunk dtype w acc count e d).1 = (roundChunk dtype w acc' count e d).1)

/-- RESET LEAVES every register at the reset value of its rule, neither part running, READY 0, BSY_START 1, nothing sent, nothing waiting
and both memories in canonical form. -/
def Obligations.ResetState : Prop :=
  (∀ d off, State.reset.b.reg d off = if off = offCptStatus then 0x1000000000000000#64 else regReset d off) ∧
  (∀ d, State.reset.b.clocked d = false ∧ State.reset.b.reg d offStatus = 0x4000#64 ∧ State.reset.b.mboxFull d = false ∧
    State.reset.b.fld d offMboxCtl 31 16 = 10 ∧ State.reset.b.fld d offDbMask 31 0 = 0xFFFFFFFF ∧ State.reset.b.lstate d 0 = 0 ∧
    State.reset.b.pinRdyBsy d = false ∧ State.reset.b.pinAlert d = false ∧ State.reset.b.pinPcie d = false) ∧
  (∀ n, n < 1024 → State.reset.b.slotState n = 0 ∧ State.reset.b.ctxState n = 0) ∧
  State.reset.pending = [] ∧ State.reset.b.out = [] ∧ memoryCanonical State.reset

/-- BOTH MEMORIES STAY CANONICAL: no step leaves a line or a byte listed twice, out of order, or with the value an unlisted one has. -/
def Obligations.MemoryCanonicalKept : Prop :=
  ∀ (s t : State), memoryCanonical s → step s = .next t → memoryCanonical t
end

