-- ==== Sys2Proof/Laws/Bits.lean ====
section
/-! SUPPORT. Laws of bit fields and of tables: what is read back after a write, what a write leaves alone, and that every table operation
keeps the canonical form. -/

namespace Sys2Proof.Machine

open Sys2Proof

/-! ## Bit fields -/

theorem bits_lt (x hi lo : Nat) : bits x hi lo < 2 ^ (hi + 1 - lo) := Nat.mod_lt _ (Nat.two_pow_pos _)

theorem testBit_bits (x hi lo i : Nat) : (bits x hi lo).testBit i = (decide (i < hi + 1 - lo) && x.testBit (lo + i)) := by
  simp [bits, Nat.testBit_mod_two_pow, Nat.testBit_shiftRight]

theorem testBit_putBits (x hi lo v i : Nat) (h : lo ≤ hi) :
    (putBits x hi lo v).testBit i = if lo ≤ i ∧ i ≤ hi then v.testBit (i - lo) else x.testBit i := by
  unfold putBits
  have hv : v % 2 ^ (hi + 1 - lo) < 2 ^ (hi + 1 - lo) := Nat.mod_lt _ (Nat.two_pow_pos _)
  have hx : x % 2 ^ lo < 2 ^ lo := Nat.mod_lt _ (Nat.two_pow_pos _)
  have e1 : (v % 2 ^ (hi + 1 - lo)) <<< lo + x % 2 ^ lo < 2 ^ (hi + 1) := by
    rw [Nat.shiftLeft_eq]
    have : 2 ^ (hi + 1) = 2 ^ (hi + 1 - lo) * 2 ^ lo := by rw [← pow_add]; congr 1; omega
    rw [this]
    calc v % 2 ^ (hi + 1 - lo) * 2 ^ lo + x % 2 ^ lo < v % 2 ^ (hi + 1 - lo) * 2 ^ lo + 2 ^ lo := by omega
      _ = (v % 2 ^ (hi + 1 - lo) + 1) * 2 ^ lo := by ring
      _ ≤ 2 ^ (hi + 1 - lo) * 2 ^ lo := Nat.mul_le_mul_right _ (by omega)
  rw [Nat.add_assoc, Nat.shiftLeft_add_eq_or_of_lt e1, Nat.shiftLeft_add_eq_or_of_lt hx]
  simp only [Nat.testBit_or, Nat.testBit_shiftLeft, Nat.testBit_shiftRight, Nat.testBit_mod_two_pow]
  by_cases h1 : i < lo
  · have : ¬ (lo ≤ i ∧ i ≤ hi) := by omega
    have h3 : ¬ hi + 1 ≤ i := by omega
    have h4 : ¬ lo ≤ i := by omega
    simp [h1, h3, h4]
  · by_cases h2 : i ≤ hi
    · have h3 : ¬ hi + 1 ≤ i := by omega
      have h4 : lo ≤ i := by omega
      have h5 : i - lo < hi + 1 - lo := by omega
      simp [h1, h2, h3, h4, h5]
    · have h3 : hi + 1 ≤ i := by omega
      have h4 : lo ≤ i := by omega
      have h5 : ¬ i - lo < hi + 1 - lo := by omega
      have h6 : hi + 1 + (i - (hi + 1)) = i := by omega
      simp [h1, h2, h3, h4, h5, h6]

/-- A field reads as what was put there. -/
theorem bits_putBits_same (x hi lo v : Nat) (h : lo ≤ hi) : bits (putBits x hi lo v) hi lo = v % 2 ^ (hi + 1 - lo) := by
  apply Nat.eq_of_testBit_eq
  intro i
  rw [testBit_bits, testBit_putBits _ _ _ _ _ h, Nat.testBit_mod_two_pow]
  by_cases hi' : i < hi + 1 - lo
  · have : lo ≤ lo + i ∧ lo + i ≤ hi := by omega
    simp [hi', this]
  · simp [hi']

/-- A field apart from the one written keeps its value. -/
theorem bits_putBits_other (x hi lo v hi' lo' : Nat) (h : lo ≤ hi) (d : hi' < lo ∨ hi < lo') :
    bits (putBits x hi lo v) hi' lo' = bits x hi' lo' := by
  apply Nat.eq_of_testBit_eq
  intro i
  rw [testBit_bits, testBit_bits, testBit_putBits _ _ _ _ _ h]
  by_cases hi2 : i < hi' + 1 - lo'
  · have : ¬ (lo ≤ lo' + i ∧ lo' + i ≤ hi) := by omega
    simp [hi2, this]
  · simp [hi2]

theorem putBits_lt (x hi lo v n : Nat) (h : lo ≤ hi) (hn : hi < n) (hx : x < 2 ^ n) : putBits x hi lo v < 2 ^ n := by
  apply Nat.lt_of_testBit n
  · rw [testBit_putBits _ _ _ _ _ h]
    have : ¬ (lo ≤ n ∧ n ≤ hi) := by omega
    simp [this, Nat.testBit_lt_two_pow hx]
  · simp
  · intro j hj
    rw [testBit_putBits _ _ _ _ _ h]
    have : ¬ (lo ≤ j ∧ j ≤ hi) := by omega
    rw [if_neg this, Nat.testBit_lt_two_pow (lt_of_lt_of_le hx (Nat.pow_le_pow_right (by omega) (by omega)))]
    simp only [Nat.testBit_two_pow]
    simp; omega

theorem setF_toNat (w : W64) (hi lo v : Nat) (h : lo ≤ hi) (hn : hi < 64) : (setF w hi lo v).toNat = putBits w.toNat hi lo v := by
  simp only [setF, BitVec.toNat_ofNat]
  exact Nat.mod_eq_of_lt (putBits_lt _ _ _ _ _ h hn w.isLt)

/-- A register field reads as what was written. -/
theorem getF_setF_same (w : W64) (hi lo v : Nat) (h : lo ≤ hi) (hn : hi < 64) : getF (setF w hi lo v) hi lo = v % 2 ^ (hi + 1 - lo) := by
  rw [getF, setF_toNat _ _ _ _ h hn, bits_putBits_same _ _ _ _ h]

/-- A register field apart from the one written keeps its value. -/
theorem getF_setF_other (w : W64) (hi lo v hi' lo' : Nat) (h : lo ≤ hi) (hn : hi < 64) (d : hi' < lo ∨ hi < lo') :
    getF (setF w hi lo v) hi' lo' = getF w hi' lo' := by
  rw [getF, setF_toNat _ _ _ _ h hn, bits_putBits_other _ _ _ _ _ _ h d, getF]

theorem getF_lt (w : W64) (hi lo : Nat) : getF w hi lo < 2 ^ (hi + 1 - lo) := bits_lt _ _ _

/-! ## Tables -/

namespace Tbl

variable {α : Type}

theorem get_insert_same (t : Tbl α) (k : Nat) (v d : α) : (t.insert k v).get k d = v := by
  induction t with
  | nil => simp [insert, get]
  | cons e r ih =>
    obtain ⟨j, w⟩ := e
    unfold insert
    by_cases h1 : k < j
    · simp [h1, get]
    · by_cases h2 : k = j
      · subst h2; simp [get]
      · have h3 : ¬ (j = k) := fun e => h2 e.symm
        simp [h1, h2, h3, get, ih]

theorem get_insert_other (t : Tbl α) (k j : Nat) (v d : α) (h : j ≠ k) : (t.insert k v).get j d = t.get j d := by
  have hk : (k == j) = false := by simpa using Ne.symm h
  induction t with
  | nil => simp [insert, get, hk]
  | cons e r ih =>
    obtain ⟨i, w⟩ := e
    unfold insert
    by_cases h1 : k < i
    · simp [h1, get, hk]
    · by_cases h2 : k = i
      · subst h2; simp [get, hk]
      · have h4 : (k == i) = false := by simpa using h2
        simp only [h1, if_false, h4, Bool.false_eq_true, get, ih]

theorem get_erase_same (t : Tbl α) (k : Nat) (d : α) : (t.erase k).get k d = d := by
  induction t with
  | nil => simp [erase, get]
  | cons e r ih =>
    obtain ⟨i, w⟩ := e
    unfold erase at ih ⊢
    by_cases h : i = k
    · subst h; simpa using ih
    · have h4 : (i == k) = false := by simpa using h
      rw [List.filter_cons_of_pos (by simp [h4])]
      simp only [get, h4, Bool.false_eq_true, if_false, ih]

theorem get_erase_other (t : Tbl α) (k j : Nat) (d : α) (h : j ≠ k) : (t.erase k).get j d = t.get j d := by
  induction t with
  | nil => simp [erase, get]
  | cons e r ih =>
    obtain ⟨i, w⟩ := e
    unfold erase at ih ⊢
    by_cases h1 : i = k
    · have h5 : (i == j) = false := by subst h1; simpa using Ne.symm h
      rw [List.filter_cons_of_neg (by simp [h1])]
      simp only [get, h5, Bool.false_eq_true, if_false, ih]
    · rw [List.filter_cons_of_pos (by simp [h1])]
      simp only [get, ih]

/-- A table reads back what was written. -/
theorem get_set_same [DecidableEq α] (t : Tbl α) (k : Nat) (v d : α) : (t.set k v d).get k d = v := by
  unfold set
  split
  · rename_i h; rw [get_erase_same, h]
  · exact get_insert_same _ _ _ _

/-- A write leaves every other entry alone. -/
theorem get_set_other [DecidableEq α] (t : Tbl α) (k j : Nat) (v d d' : α) (h : j ≠ k) : (t.set k v d).get j d' = t.get j d' := by
  unfold set
  split
  · exact get_erase_other _ _ _ _ h
  · exact get_insert_other _ _ _ _ _ h

/-! ### Canonical form -/

theorem above_mono {lo lo' : Nat} {t : Tbl α} (h : lo ≤ lo') (ha : above lo' t = true) : above lo t = true := by
  cases t with
  | nil => rfl
  | cons e r =>
    obtain ⟨k, w⟩ := e
    simp only [above, Bool.and_eq_true, decide_eq_true_eq] at ha ⊢
    exact ⟨by omega, ha.2⟩

/-- A run of rising entries stays one when entries are left out. -/
theorem above_filter (p : Nat × α → Bool) (t : Tbl α) : ∀ lo, above lo t = true → above lo (t.filter p) = true := by
  induction t with
  | nil => intro lo _; rfl
  | cons e r ih =>
    obtain ⟨k, w⟩ := e
    intro lo h
    simp only [above, Bool.and_eq_true, decide_eq_true_eq] at h
    simp only [List.filter]
    split
    · simp only [above, Bool.and_eq_true, decide_eq_true_eq]; exact ⟨h.1, ih k h.2⟩
    · exact above_mono (Nat.le_of_lt h.1) (ih k h.2)

theorem above_insert (t : Tbl α) (k : Nat) (v : α) : ∀ lo, lo < k → above lo t = true → above lo (t.insert k v) = true := by
  induction t with
  | nil => intro lo h _; simp [insert, above, h]
  | cons e r ih =>
    obtain ⟨j, w⟩ := e
    intro lo hk h
    simp only [above, Bool.and_eq_true, decide_eq_true_eq] at h
    unfold insert
    by_cases h1 : k < j
    · simp [h1, above, hk, h.2]
    · by_cases h2 : k = j
      · subst h2; simp [above, h.1, h.2]
      · have h3 : (k == j) = false := by simp [h2]
        simp only [h1, h3, Bool.false_eq_true, if_false, above, Bool.and_eq_true, decide_eq_true_eq]
        exact ⟨h.1, ih j (by omega) h.2⟩

/-- Rising numbers, as `wf` asks for them. -/
def rising : Tbl α → Bool
  | [] => true
  | (k, _) :: r => above k r

theorem rising_of_above {lo : Nat} {t : Tbl α} (h : above lo t = true) : rising t = true := by
  cases t with
  | nil => rfl
  | cons e r => obtain ⟨k, w⟩ := e; simp only [above, Bool.and_eq_true] at h; exact h.2

theorem rising_filter (p : Nat × α → Bool) (t : Tbl α) (h : rising t = true) : rising (t.filter p) = true := by
  induction t with
  | nil => rfl
  | cons e r ih =>
    obtain ⟨k, w⟩ := e
    simp only [List.filter]
    split
    · exact above_filter p r k h
    · exact rising_of_above (above_filter p r k h)

theorem rising_insert (t : Tbl α) (k : Nat) (v : α) (h : rising t = true) : rising (t.insert k v) = true := by
  cases t with
  | nil => rfl
  | cons e r =>
    obtain ⟨j, w⟩ := e
    have h : above j r = true := h
    unfold insert
    by_cases h1 : k < j
    · simp only [h1, if_true, rising, above, Bool.and_eq_true, decide_eq_true_eq]; exact ⟨trivial, h⟩
    · by_cases h2 : k = j
      · subst h2; simpa [rising] using h
      · have h3 : (k == j) = false := by simp [h2]
        simp only [h1, h3, Bool.false_eq_true, if_false, rising]
        exact above_insert r k v j (by omega) h

theorem mem_insert {t : Tbl α} {k : Nat} {v : α} {e : Nat × α} (h : e ∈ t.insert k v) : e = (k, v) ∨ e ∈ t := by
  induction t with
  | nil => simpa [insert] using h
  | cons x r ih =>
    obtain ⟨j, w⟩ := x
    unfold insert at h
    by_cases h1 : k < j
    · simpa [h1] using h
    · by_cases h2 : k = j
      · subst h2
        simp at h
        rcases h with h | h
        · exact .inl h
        · exact .inr (by simp [h])
      · have h3 : (k == j) = false := by simp [h2]
        simp only [h1, h3, Bool.false_eq_true, if_false, List.mem_cons] at h
        rcases h with h | h
        · exact .inr (by simp [h])
        · rcases ih (by simpa using h) with h | h
          · exact .inl h
          · exact .inr (by simp [h])

variable [DecidableEq α]

theorem wf_iff (t : Tbl α) (d : α) : t.wf d = true ↔ rising t = true ∧ ∀ e ∈ t, e.2 ≠ d := by
  cases t with
  | nil => simp [wf, rising]
  | cons e r => obtain ⟨k, w⟩ := e; simp [wf, rising]

/-- Leaving entries out keeps the canonical form. -/
theorem wf_filter (p : Nat × α → Bool) (t : Tbl α) (d : α) (h : t.wf d = true) : Tbl.wf (t.filter p) d = true := by
  rw [wf_iff] at *
  exact ⟨rising_filter p t h.1, fun e he => h.2 e (List.mem_of_mem_filter he)⟩

/-- A write keeps the canonical form. -/
theorem wf_set (t : Tbl α) (k : Nat) (v d : α) (h : t.wf d = true) : (t.set k v d).wf d = true := by
  unfold set
  split
  · exact wf_filter _ t d h
  · rename_i hv
    rw [wf_iff] at h ⊢
    refine ⟨rising_insert t k v h.1, fun e he => ?_⟩
    rcases mem_insert he with h' | h'
    · subst h'; exact hv
    · exact h.2 e h'

theorem wf_nil (d : α) : Tbl.wf ([] : Tbl α) d = true := rfl

end Tbl

end Sys2Proof.Machine
end

