-- ==== Sys2Proof/Laws/State.lean ====
section
/-! SUPPORT. What each named update of the block leaves alone and what is read back: one lemma for each field, so that no proof unfolds a
record update. -/

namespace Sys2Proof.Machine

open Sys2Proof

namespace Blk

variable (b : Blk) (d e : Dev) (off hi lo n v : Nat) (w : W64)

/-! ## Parts -/

@[simp] theorem core_setCore_same (c : Core) : (b.setCore d c).core d = c := by cases d <;> rfl

theorem core_setCore_other (c : Core) (h : e ≠ d) : (b.setCore d c).core e = b.core e := by cases d <;> cases e <;> first | rfl | exact absurd rfl h

@[simp] theorem setCore_sw (c : Core) : (b.setCore d c).sw = b.sw := by cases d <;> rfl
@[simp] theorem setCore_ep (c : Core) : (b.setCore d c).ep = b.ep := by cases d <;> rfl
@[simp] theorem setCore_out (c : Core) : (b.setCore d c).out = b.out := by cases d <;> rfl
@[simp] theorem setCore_free (c : Core) : (b.setCore d c).free = b.free := by cases d <;> rfl

@[simp] theorem core_modCore_same (f : Core → Core) : (b.modCore d f).core d = f (b.core d) := by cases d <;> rfl
theorem core_modCore_other (f : Core → Core) (h : e ≠ d) : (b.modCore d f).core e = b.core e := by cases d <;> cases e <;> first | rfl | exact absurd rfl h
@[simp] theorem modCore_sw (f : Core → Core) : (b.modCore d f).sw = b.sw := by cases d <;> rfl
@[simp] theorem modCore_ep (f : Core → Core) : (b.modCore d f).ep = b.ep := by cases d <;> rfl
@[simp] theorem modCore_out (f : Core → Core) : (b.modCore d f).out = b.out := by cases d <;> rfl
@[simp] theorem modCore_free (f : Core → Core) : (b.modCore d f).free = b.free := by cases d <;> rfl

@[simp] theorem modSw_sw (f : Sw → Sw) : (b.modSw f).sw = f b.sw := rfl
@[simp] theorem modSw_ep (f : Sw → Sw) : (b.modSw f).ep = b.ep := rfl
@[simp] theorem modSw_core (f : Sw → Sw) : (b.modSw f).core d = b.core d := by cases d <;> rfl
@[simp] theorem modSw_out (f : Sw → Sw) : (b.modSw f).out = b.out := rfl
@[simp] theorem modSw_free (f : Sw → Sw) : (b.modSw f).free = b.free := rfl

@[simp] theorem modEp_ep (f : Ep → Ep) : (b.modEp f).ep = f b.ep := rfl
@[simp] theorem modEp_sw (f : Ep → Ep) : (b.modEp f).sw = b.sw := rfl
@[simp] theorem modEp_core (f : Ep → Ep) : (b.modEp f).core d = b.core d := by cases d <;> rfl
@[simp] theorem modEp_out (f : Ep → Ep) : (b.modEp f).out = b.out := rfl
@[simp] theorem modEp_free (f : Ep → Ep) : (b.modEp f).free = b.free := rfl

@[simp] theorem emit_sw (x : Emission) : (b.emit x).sw = b.sw := rfl
@[simp] theorem emit_ep (x : Emission) : (b.emit x).ep = b.ep := rfl
@[simp] theorem emit_core (x : Emission) : (b.emit x).core d = b.core d := by cases d <;> rfl
@[simp] theorem emit_out (x : Emission) : (b.emit x).out = x :: b.out := rfl
@[simp] theorem emit_free (x : Emission) : (b.emit x).free = b.free := rfl

/-! ## Registers -/

@[simp] theorem setReg_sw : (b.setReg d off w).sw = b.sw := by cases d <;> rfl
@[simp] theorem setReg_ep : (b.setReg d off w).ep = b.ep := by cases d <;> rfl
@[simp] theorem setReg_out : (b.setReg d off w).out = b.out := by cases d <;> rfl
@[simp] theorem setReg_free : (b.setReg d off w).free = b.free := by cases d <;> rfl
@[simp] theorem setReg_core_now : ((b.setReg d off w).core e).now = (b.core e).now := by cases d <;> cases e <;> rfl
@[simp] theorem setReg_core_tctr : ((b.setReg d off w).core e).tctr = (b.core e).tctr := by cases d <;> cases e <;> rfl
@[simp] theorem setReg_core_boot : ((b.setReg d off w).core e).boot = (b.core e).boot := by cases d <;> cases e <;> rfl
@[simp] theorem setReg_core_busMaster : ((b.setReg d off w).core e).busMaster = (b.core e).busMaster := by cases d <;> cases e <;> rfl
@[simp] theorem setReg_core_msixEn : ((b.setReg d off w).core e).msixEn = (b.core e).msixEn := by cases d <;> cases e <;> rfl
@[simp] theorem setReg_core_pcieUp : ((b.setReg d off w).core e).pcieUp = (b.core e).pcieUp := by cases d <;> cases e <;> rfl
@[simp] theorem setReg_core_mbox : ((b.setReg d off w).core e).mbox = (b.core e).mbox := by cases d <;> cases e <;> rfl
@[simp] theorem setReg_core_servo : ((b.setReg d off w).core e).servo = (b.core e).servo := by cases d <;> cases e <;> rfl
@[simp] theorem setReg_core_ports : ((b.setReg d off w).core e).ports = (b.core e).ports := by cases d <;> cases e <;> rfl
@[simp] theorem setReg_core_lvls : ((b.setReg d off w).core e).lvls = (b.core e).lvls := by cases d <;> cases e <;> rfl
@[simp] theorem setReg_core_dark : ((b.setReg d off w).core e).dark = (b.core e).dark := by cases d <;> cases e <;> rfl
@[simp] theorem setReg_core_keys : ((b.setReg d off w).core e).keys = (b.core e).keys := by cases d <;> cases e <;> rfl
@[simp] theorem setReg_core_spdm : ((b.setReg d off w).core e).spdm = (b.core e).spdm := by cases d <;> cases e <;> rfl
@[simp] theorem setReg_core_idDigest : ((b.setReg d off w).core e).idDigest = (b.core e).idDigest := by cases d <;> cases e <;> rfl
@[simp] theorem setReg_core_certOk : ((b.setReg d off w).core e).certOk = (b.core e).certOk := by cases d <;> cases e <;> rfl
@[simp] theorem setReg_core_fwDigest : ((b.setReg d off w).core e).fwDigest = (b.core e).fwDigest := by cases d <;> cases e <;> rfl
@[simp] theorem setReg_core_fwReg : ((b.setReg d off w).core e).fwReg = (b.core e).fwReg := by cases d <;> cases e <;> rfl
@[simp] theorem setReg_core_fwStart : ((b.setReg d off w).core e).fwStart = (b.core e).fwStart := by cases d <;> cases e <;> rfl

@[simp] theorem putReg_sw : (b.putReg d off v).sw = b.sw := by cases d <;> rfl
@[simp] theorem putReg_ep : (b.putReg d off v).ep = b.ep := by cases d <;> rfl
@[simp] theorem putReg_out : (b.putReg d off v).out = b.out := by cases d <;> rfl
@[simp] theorem putReg_free : (b.putReg d off v).free = b.free := by cases d <;> rfl
@[simp] theorem putReg_core_now : ((b.putReg d off v).core e).now = (b.core e).now := by cases d <;> cases e <;> rfl
@[simp] theorem putReg_core_tctr : ((b.putReg d off v).core e).tctr = (b.core e).tctr := by cases d <;> cases e <;> rfl
@[simp] theorem putReg_core_boot : ((b.putReg d off v).core e).boot = (b.core e).boot := by cases d <;> cases e <;> rfl
@[simp] theorem putReg_core_busMaster : ((b.putReg d off v).core e).busMaster = (b.core e).busMaster := by cases d <;> cases e <;> rfl
@[simp] theorem putReg_core_msixEn : ((b.putReg d off v).core e).msixEn = (b.core e).msixEn := by cases d <;> cases e <;> rfl
@[simp] theorem putReg_core_pcieUp : ((b.putReg d off v).core e).pcieUp = (b.core e).pcieUp := by cases d <;> cases e <;> rfl
@[simp] theorem putReg_core_mbox : ((b.putReg d off v).core e).mbox = (b.core e).mbox := by cases d <;> cases e <;> rfl
@[simp] theorem putReg_core_servo : ((b.putReg d off v).core e).servo = (b.core e).servo := by cases d <;> cases e <;> rfl
@[simp] theorem putReg_core_ports : ((b.putReg d off v).core e).ports = (b.core e).ports := by cases d <;> cases e <;> rfl
@[simp] theorem putReg_core_lvls : ((b.putReg d off v).core e).lvls = (b.core e).lvls := by cases d <;> cases e <;> rfl
@[simp] theorem putReg_core_dark : ((b.putReg d off v).core e).dark = (b.core e).dark := by cases d <;> cases e <;> rfl
@[simp] theorem putReg_core_keys : ((b.putReg d off v).core e).keys = (b.core e).keys := by cases d <;> cases e <;> rfl
@[simp] theorem putReg_core_spdm : ((b.putReg d off v).core e).spdm = (b.core e).spdm := by cases d <;> cases e <;> rfl
@[simp] theorem putReg_core_idDigest : ((b.putReg d off v).core e).idDigest = (b.core e).idDigest := by cases d <;> cases e <;> rfl
@[simp] theorem putReg_core_certOk : ((b.putReg d off v).core e).certOk = (b.core e).certOk := by cases d <;> cases e <;> rfl
@[simp] theorem putReg_core_fwDigest : ((b.putReg d off v).core e).fwDigest = (b.core e).fwDigest := by cases d <;> cases e <;> rfl
@[simp] theorem putReg_core_fwReg : ((b.putReg d off v).core e).fwReg = (b.core e).fwReg := by cases d <;> cases e <;> rfl
@[simp] theorem putReg_core_fwStart : ((b.putReg d off v).core e).fwStart = (b.core e).fwStart := by cases d <;> cases e <;> rfl

@[simp] theorem setFld_sw : (b.setFld d off hi lo v).sw = b.sw := by cases d <;> rfl
@[simp] theorem setFld_ep : (b.setFld d off hi lo v).ep = b.ep := by cases d <;> rfl
@[simp] theorem setFld_out : (b.setFld d off hi lo v).out = b.out := by cases d <;> rfl
@[simp] theorem setFld_free : (b.setFld d off hi lo v).free = b.free := by cases d <;> rfl
@[simp] theorem setFld_core_now : ((b.setFld d off hi lo v).core e).now = (b.core e).now := by cases d <;> cases e <;> rfl
@[simp] theorem setFld_core_tctr : ((b.setFld d off hi lo v).core e).tctr = (b.core e).tctr := by cases d <;> cases e <;> rfl
@[simp] theorem setFld_core_boot : ((b.setFld d off hi lo v).core e).boot = (b.core e).boot := by cases d <;> cases e <;> rfl
@[simp] theorem setFld_core_busMaster : ((b.setFld d off hi lo v).core e).busMaster = (b.core e).busMaster := by cases d <;> cases e <;> rfl
@[simp] theorem setFld_core_msixEn : ((b.setFld d off hi lo v).core e).msixEn = (b.core e).msixEn := by cases d <;> cases e <;> rfl
@[simp] theorem setFld_core_pcieUp : ((b.setFld d off hi lo v).core e).pcieUp = (b.core e).pcieUp := by cases d <;> cases e <;> rfl
@[simp] theorem setFld_core_mbox : ((b.setFld d off hi lo v).core e).mbox = (b.core e).mbox := by cases d <;> cases e <;> rfl
@[simp] theorem setFld_core_servo : ((b.setFld d off hi lo v).core e).servo = (b.core e).servo := by cases d <;> cases e <;> rfl
@[simp] theorem setFld_core_ports : ((b.setFld d off hi lo v).core e).ports = (b.core e).ports := by cases d <;> cases e <;> rfl
@[simp] theorem setFld_core_lvls : ((b.setFld d off hi lo v).core e).lvls = (b.core e).lvls := by cases d <;> cases e <;> rfl
@[simp] theorem setFld_core_dark : ((b.setFld d off hi lo v).core e).dark = (b.core e).dark := by cases d <;> cases e <;> rfl
@[simp] theorem setFld_core_keys : ((b.setFld d off hi lo v).core e).keys = (b.core e).keys := by cases d <;> cases e <;> rfl
@[simp] theorem setFld_core_spdm : ((b.setFld d off hi lo v).core e).spdm = (b.core e).spdm := by cases d <;> cases e <;> rfl
@[simp] theorem setFld_core_idDigest : ((b.setFld d off hi lo v).core e).idDigest = (b.core e).idDigest := by cases d <;> cases e <;> rfl
@[simp] theorem setFld_core_certOk : ((b.setFld d off hi lo v).core e).certOk = (b.core e).certOk := by cases d <;> cases e <;> rfl
@[simp] theorem setFld_core_fwDigest : ((b.setFld d off hi lo v).core e).fwDigest = (b.core e).fwDigest := by cases d <;> cases e <;> rfl
@[simp] theorem setFld_core_fwReg : ((b.setFld d off hi lo v).core e).fwReg = (b.core e).fwReg := by cases d <;> cases e <;> rfl
@[simp] theorem setFld_core_fwStart : ((b.setFld d off hi lo v).core e).fwStart = (b.core e).fwStart := by cases d <;> cases e <;> rfl

@[simp] theorem count_sw : (b.count d off hi lo v).sw = b.sw := by cases d <;> rfl
@[simp] theorem count_ep : (b.count d off hi lo v).ep = b.ep := by cases d <;> rfl
@[simp] theorem count_out : (b.count d off hi lo v).out = b.out := by cases d <;> rfl
@[simp] theorem count_free : (b.count d off hi lo v).free = b.free := by cases d <;> rfl
@[simp] theorem count_core_now : ((b.count d off hi lo v).core e).now = (b.core e).now := by cases d <;> cases e <;> rfl
@[simp] theorem count_core_tctr : ((b.count d off hi lo v).core e).tctr = (b.core e).tctr := by cases d <;> cases e <;> rfl
@[simp] theorem count_core_boot : ((b.count d off hi lo v).core e).boot = (b.core e).boot := by cases d <;> cases e <;> rfl
@[simp] theorem count_core_busMaster : ((b.count d off hi lo v).core e).busMaster = (b.core e).busMaster := by cases d <;> cases e <;> rfl
@[simp] theorem count_core_msixEn : ((b.count d off hi lo v).core e).msixEn = (b.core e).msixEn := by cases d <;> cases e <;> rfl
@[simp] theorem count_core_pcieUp : ((b.count d off hi lo v).core e).pcieUp = (b.core e).pcieUp := by cases d <;> cases e <;> rfl
@[simp] theorem count_core_mbox : ((b.count d off hi lo v).core e).mbox = (b.core e).mbox := by cases d <;> cases e <;> rfl
@[simp] theorem count_core_servo : ((b.count d off hi lo v).core e).servo = (b.core e).servo := by cases d <;> cases e <;> rfl
@[simp] theorem count_core_ports : ((b.count d off hi lo v).core e).ports = (b.core e).ports := by cases d <;> cases e <;> rfl
@[simp] theorem count_core_lvls : ((b.count d off hi lo v).core e).lvls = (b.core e).lvls := by cases d <;> cases e <;> rfl
@[simp] theorem count_core_dark : ((b.count d off hi lo v).core e).dark = (b.core e).dark := by cases d <;> cases e <;> rfl
@[simp] theorem count_core_keys : ((b.count d off hi lo v).core e).keys = (b.core e).keys := by cases d <;> cases e <;> rfl
@[simp] theorem count_core_spdm : ((b.count d off hi lo v).core e).spdm = (b.core e).spdm := by cases d <;> cases e <;> rfl
@[simp] theorem count_core_idDigest : ((b.count d off hi lo v).core e).idDigest = (b.core e).idDigest := by cases d <;> cases e <;> rfl
@[simp] theorem count_core_certOk : ((b.count d off hi lo v).core e).certOk = (b.core e).certOk := by cases d <;> cases e <;> rfl
@[simp] theorem count_core_fwDigest : ((b.count d off hi lo v).core e).fwDigest = (b.core e).fwDigest := by cases d <;> cases e <;> rfl
@[simp] theorem count_core_fwReg : ((b.count d off hi lo v).core e).fwReg = (b.core e).fwReg := by cases d <;> cases e <;> rfl
@[simp] theorem count_core_fwStart : ((b.count d off hi lo v).core e).fwStart = (b.core e).fwStart := by cases d <;> cases e <;> rfl

@[simp] theorem wrapCount_sw : (b.wrapCount d off hi lo v).sw = b.sw := by cases d <;> rfl
@[simp] theorem wrapCount_ep : (b.wrapCount d off hi lo v).ep = b.ep := by cases d <;> rfl
@[simp] theorem wrapCount_out : (b.wrapCount d off hi lo v).out = b.out := by cases d <;> rfl
@[simp] theorem wrapCount_free : (b.wrapCount d off hi lo v).free = b.free := by cases d <;> rfl
@[simp] theorem wrapCount_core_now : ((b.wrapCount d off hi lo v).core e).now = (b.core e).now := by cases d <;> cases e <;> rfl
@[simp] theorem wrapCount_core_tctr : ((b.wrapCount d off hi lo v).core e).tctr = (b.core e).tctr := by cases d <;> cases e <;> rfl
@[simp] theorem wrapCount_core_boot : ((b.wrapCount d off hi lo v).core e).boot = (b.core e).boot := by cases d <;> cases e <;> rfl
@[simp] theorem wrapCount_core_busMaster : ((b.wrapCount d off hi lo v).core e).busMaster = (b.core e).busMaster := by cases d <;> cases e <;> rfl
@[simp] theorem wrapCount_core_msixEn : ((b.wrapCount d off hi lo v).core e).msixEn = (b.core e).msixEn := by cases d <;> cases e <;> rfl
@[simp] theorem wrapCount_core_pcieUp : ((b.wrapCount d off hi lo v).core e).pcieUp = (b.core e).pcieUp := by cases d <;> cases e <;> rfl
@[simp] theorem wrapCount_core_mbox : ((b.wrapCount d off hi lo v).core e).mbox = (b.core e).mbox := by cases d <;> cases e <;> rfl
@[simp] theorem wrapCount_core_servo : ((b.wrapCount d off hi lo v).core e).servo = (b.core e).servo := by cases d <;> cases e <;> rfl
@[simp] theorem wrapCount_core_ports : ((b.wrapCount d off hi lo v).core e).ports = (b.core e).ports := by cases d <;> cases e <;> rfl
@[simp] theorem wrapCount_core_lvls : ((b.wrapCount d off hi lo v).core e).lvls = (b.core e).lvls := by cases d <;> cases e <;> rfl
@[simp] theorem wrapCount_core_dark : ((b.wrapCount d off hi lo v).core e).dark = (b.core e).dark := by cases d <;> cases e <;> rfl
@[simp] theorem wrapCount_core_keys : ((b.wrapCount d off hi lo v).core e).keys = (b.core e).keys := by cases d <;> cases e <;> rfl
@[simp] theorem wrapCount_core_spdm : ((b.wrapCount d off hi lo v).core e).spdm = (b.core e).spdm := by cases d <;> cases e <;> rfl
@[simp] theorem wrapCount_core_idDigest : ((b.wrapCount d off hi lo v).core e).idDigest = (b.core e).idDigest := by cases d <;> cases e <;> rfl
@[simp] theorem wrapCount_core_certOk : ((b.wrapCount d off hi lo v).core e).certOk = (b.core e).certOk := by cases d <;> cases e <;> rfl
@[simp] theorem wrapCount_core_fwDigest : ((b.wrapCount d off hi lo v).core e).fwDigest = (b.core e).fwDigest := by cases d <;> cases e <;> rfl
@[simp] theorem wrapCount_core_fwReg : ((b.wrapCount d off hi lo v).core e).fwReg = (b.core e).fwReg := by cases d <;> cases e <;> rfl
@[simp] theorem wrapCount_core_fwStart : ((b.wrapCount d off hi lo v).core e).fwStart = (b.core e).fwStart := by cases d <;> cases e <;> rfl

@[simp] theorem setFlag_sw (x : Bool) : (b.setFlag d off n x).sw = b.sw := by cases d <;> rfl
@[simp] theorem setFlag_ep (x : Bool) : (b.setFlag d off n x).ep = b.ep := by cases d <;> rfl
@[simp] theorem setFlag_out (x : Bool) : (b.setFlag d off n x).out = b.out := by cases d <;> rfl
@[simp] theorem setFlag_free (x : Bool) : (b.setFlag d off n x).free = b.free := by cases d <;> rfl
@[simp] theorem setFlag_core_now (x : Bool) : ((b.setFlag d off n x).core e).now = (b.core e).now := by cases d <;> cases e <;> rfl
@[simp] theorem setFlag_core_tctr (x : Bool) : ((b.setFlag d off n x).core e).tctr = (b.core e).tctr := by cases d <;> cases e <;> rfl
@[simp] theorem setFlag_core_boot (x : Bool) : ((b.setFlag d off n x).core e).boot = (b.core e).boot := by cases d <;> cases e <;> rfl
@[simp] theorem setFlag_core_busMaster (x : Bool) : ((b.setFlag d off n x).core e).busMaster = (b.core e).busMaster := by cases d <;> cases e <;> rfl
@[simp] theorem setFlag_core_msixEn (x : Bool) : ((b.setFlag d off n x).core e).msixEn = (b.core e).msixEn := by cases d <;> cases e <;> rfl
@[simp] theorem setFlag_core_pcieUp (x : Bool) : ((b.setFlag d off n x).core e).pcieUp = (b.core e).pcieUp := by cases d <;> cases e <;> rfl
@[simp] theorem setFlag_core_mbox (x : Bool) : ((b.setFlag d off n x).core e).mbox = (b.core e).mbox := by cases d <;> cases e <;> rfl
@[simp] theorem setFlag_core_servo (x : Bool) : ((b.setFlag d off n x).core e).servo = (b.core e).servo := by cases d <;> cases e <;> rfl
@[simp] theorem setFlag_core_ports (x : Bool) : ((b.setFlag d off n x).core e).ports = (b.core e).ports := by cases d <;> cases e <;> rfl
@[simp] theorem setFlag_core_lvls (x : Bool) : ((b.setFlag d off n x).core e).lvls = (b.core e).lvls := by cases d <;> cases e <;> rfl
@[simp] theorem setFlag_core_dark (x : Bool) : ((b.setFlag d off n x).core e).dark = (b.core e).dark := by cases d <;> cases e <;> rfl
@[simp] theorem setFlag_core_keys (x : Bool) : ((b.setFlag d off n x).core e).keys = (b.core e).keys := by cases d <;> cases e <;> rfl
@[simp] theorem setFlag_core_spdm (x : Bool) : ((b.setFlag d off n x).core e).spdm = (b.core e).spdm := by cases d <;> cases e <;> rfl
@[simp] theorem setFlag_core_idDigest (x : Bool) : ((b.setFlag d off n x).core e).idDigest = (b.core e).idDigest := by cases d <;> cases e <;> rfl
@[simp] theorem setFlag_core_certOk (x : Bool) : ((b.setFlag d off n x).core e).certOk = (b.core e).certOk := by cases d <;> cases e <;> rfl
@[simp] theorem setFlag_core_fwDigest (x : Bool) : ((b.setFlag d off n x).core e).fwDigest = (b.core e).fwDigest := by cases d <;> cases e <;> rfl
@[simp] theorem setFlag_core_fwReg (x : Bool) : ((b.setFlag d off n x).core e).fwReg = (b.core e).fwReg := by cases d <;> cases e <;> rfl
@[simp] theorem setFlag_core_fwStart (x : Bool) : ((b.setFlag d off n x).core e).fwStart = (b.core e).fwStart := by cases d <;> cases e <;> rfl

end Blk

end Sys2Proof.Machine
end

