-- ==== Sys2Proof/Laws/Registers.lean ====
section
/-! SUPPORT. Registers read back, and what the operations on status bits, interrupts and error records touch. -/

namespace Sys2Proof.Machine

open Sys2Proof

namespace Blk

variable (b b' c : Blk) (d e : Dev) (off off' hi lo hi' lo' n v : Nat) (w : W64)

/-! ## Reading back -/

/-- A register reads as what was written. -/
@[simp] theorem reg_setReg_same : (b.setReg d off w).reg d off = w := by
  unfold reg setReg
  rw [core_modCore_same]
  exact Tbl.get_set_same (b.core d).regs off w (regReset d off)

/-- Any other register keeps its value. -/
theorem reg_setReg_other (h : off' ≠ off) : (b.setReg d off w).reg d off' = b.reg d off' := by
  unfold reg setReg
  rw [core_modCore_same]
  exact Tbl.get_set_other (b.core d).regs off off' w (regReset d off) (regReset d off') h

/-- The other part's registers keep their values. -/
theorem reg_setReg_part (h : e ≠ d) : (b.setReg d off w).reg e off' = b.reg e off' := by
  unfold reg setReg
  rw [core_modCore_other _ _ _ _ h]

@[simp] theorem reg_putReg_same : (b.putReg d off v).reg d off = BitVec.ofNat 64 v := reg_setReg_same _ _ _ _

theorem reg_putReg_other (h : off' ≠ off) : (b.putReg d off v).reg d off' = b.reg d off' := reg_setReg_other _ _ _ _ _ h

theorem reg_setFld_other (h : off' ≠ off) : (b.setFld d off hi lo v).reg d off' = b.reg d off' := reg_setReg_other _ _ _ _ _ h

theorem reg_setFlag_other (x : Bool) (h : off' ≠ off) : (b.setFlag d off n x).reg d off' = b.reg d off' := reg_setReg_other _ _ _ _ _ h

theorem reg_count_other (h : off' ≠ off) : (b.count d off hi lo v).reg d off' = b.reg d off' := reg_setReg_other _ _ _ _ _ h

/-- A field reads as what the part wrote. -/
theorem fld_setFld_same (h : lo ≤ hi) (hn : hi < 64) : (b.setFld d off hi lo v).fld d off hi lo = v % 2 ^ (hi + 1 - lo) := by
  unfold fld setFld
  rw [reg_setReg_same, getF_setF_same _ _ _ _ h hn]

/-- Another field of the register keeps its value. -/
theorem fld_setFld_other (h : lo ≤ hi) (hn : hi < 64) (x : hi' < lo ∨ hi < lo') :
    (b.setFld d off hi lo v).fld d off hi' lo' = b.fld d off hi' lo' := by
  unfold fld setFld
  rw [reg_setReg_same, getF_setF_other _ _ _ _ _ _ h hn x]

/-- A field of another register keeps its value. -/
theorem fld_setFld_reg (h : off' ≠ off) : (b.setFld d off hi lo v).fld d off' hi' lo' = b.fld d off' hi' lo' := by
  unfold fld
  rw [reg_setFld_other _ _ _ _ _ _ _ h]

theorem flag_setFlag_same (x : Bool) (hn : n < 64) : (b.setFlag d off n x).flag d off n = x := by
  unfold flag setFlag
  rw [fld_setFld_same _ _ _ _ _ _ le_rfl hn]
  cases x <;> simp [b2n]

theorem flag_setFlag_other (x : Bool) (hn : n < 64) (h : hi ≠ n) : (b.setFlag d off n x).flag d off hi = b.flag d off hi := by
  unfold flag setFlag
  rw [fld_setFld_other _ _ _ _ _ _ _ _ le_rfl hn (by omega)]

theorem flag_setFlag_reg (x : Bool) (h : off' ≠ off) : (b.setFlag d off n x).flag d off' hi = b.flag d off' hi := by
  unfold flag setFlag
  rw [fld_setFld_reg _ _ _ _ _ _ _ _ _ h]

/-- A saturating counter. -/
theorem fld_count_same (h : lo ≤ hi) (hn : hi < 64) :
    (b.count d off hi lo n).fld d off hi lo = satAdd (hi + 1 - lo) (b.fld d off hi lo) n := by
  unfold count
  rw [fld_setFld_same _ _ _ _ _ _ h hn]
  apply Nat.mod_eq_of_lt
  unfold satAdd
  have := Nat.two_pow_pos (hi + 1 - lo)
  omega

/-! ## Operations that touch only registers of a part and what has been sent -/

/-- `b'` is `b` but for registers of part `d` and for what has been sent. -/
structure RegsOut (b b' : Blk) (d : Dev) : Prop where
  sw   : b'.sw = b.sw
  ep   : b'.ep = b.ep
  free : b'.free = b.free
  regs : ∃ r, b'.core d = { b.core d with regs := r }
  other : ∀ e, e ≠ d → b'.core e = b.core e

theorem RegsOut.refl : RegsOut b b d := ⟨rfl, rfl, rfl, ⟨_, rfl⟩, fun _ _ => rfl⟩

theorem RegsOut.trans {b b' c : Blk} {d : Dev} (h : RegsOut b b' d) (k : RegsOut b' c d) : RegsOut b c d := by
  obtain ⟨r, hr⟩ := h.regs
  obtain ⟨q, hq⟩ := k.regs
  refine ⟨k.sw.trans h.sw, k.ep.trans h.ep, k.free.trans h.free, ⟨q, ?_⟩, fun e he => (k.other e he).trans (h.other e he)⟩
  rw [hq, hr]

theorem RegsOut.setReg : RegsOut b (b.setReg d off w) d :=
  ⟨by simp, by simp, by simp, ⟨_, core_modCore_same _ _ _⟩, fun e he => core_modCore_other _ _ _ _ he⟩

theorem RegsOut.putReg : RegsOut b (b.putReg d off v) d := RegsOut.setReg _ _ _ _
theorem RegsOut.setFld : RegsOut b (b.setFld d off hi lo v) d := RegsOut.setReg _ _ _ _
theorem RegsOut.setFlag (x : Bool) : RegsOut b (b.setFlag d off n x) d := RegsOut.setReg _ _ _ _
theorem RegsOut.count : RegsOut b (b.count d off hi lo v) d := RegsOut.setReg _ _ _ _
theorem RegsOut.wrapCount : RegsOut b (b.wrapCount d off hi lo v) d := RegsOut.setReg _ _ _ _
theorem RegsOut.writeFields : RegsOut b (b.writeFields d off v) d := RegsOut.setReg _ _ _ _
theorem RegsOut.emit (x : Emission) : RegsOut b (b.emit x) d :=
  ⟨rfl, rfl, rfl, ⟨(b.core d).regs, by simp⟩, fun e _ => by simp⟩

theorem RegsOut.when_ (t : Bool) (f : Blk → Blk) (h : RegsOut b (f b) d) : RegsOut b (b.when_ t f) d := by
  unfold Blk.when_; split
  · exact h
  · exact RegsOut.refl _ _

/-- Sending or holding a vector (R464). -/
theorem RegsOut.sendVector : RegsOut b (b.sendVector d v) d := by
  unfold Blk.sendVector; split
  · exact RegsOut.setFlag _ _ _ _ _
  · exact RegsOut.emit _ _ _

/-- A doorbell (R461). -/
theorem RegsOut.ring : RegsOut b (b.ring d n) d := by
  unfold Blk.ring
  exact (RegsOut.setFlag b d _ _ _).trans (RegsOut.when_ _ _ _ _ (RegsOut.sendVector _ _ _))

/-- A clock event (R501). -/
theorem RegsOut.cptEvent : RegsOut b (b.cptEvent d n) d := by
  unfold Blk.cptEvent; split
  · exact RegsOut.refl _ _
  · exact (RegsOut.setFlag b d _ _ _).trans (RegsOut.sendVector _ _ _)

/-- READY brought in line (R448). -/
theorem RegsOut.refreshReady (t : Bool) : RegsOut b (b.refreshReady d t) d := by
  simp only [Blk.refreshReady]
  split
  · exact RegsOut.refl _ _
  · split
    · exact (RegsOut.setFlag b d _ _ _).trans (RegsOut.ring _ _ _)
    · exact (RegsOut.setFlag b d _ _ _).trans (RegsOut.when_ _ _ _ _ (RegsOut.ring _ _ _))

/-- A BSY bit written (R448). -/
theorem RegsOut.setBsy (t : Bool) : RegsOut b (b.setBsy d n t) d := (RegsOut.setFlag b d _ _ _).trans (RegsOut.refreshReady _ _ _)

/-- An error record (R434). -/
theorem RegsOut.errRecord (r : ErrRec) : RegsOut b (b.errRecord d r) d := by
  unfold Blk.errRecord
  exact (RegsOut.putReg b d _ _).trans ((RegsOut.putReg _ d _ _).trans ((RegsOut.putReg _ d _ _).trans ((RegsOut.putReg _ d _ _).trans
    ((RegsOut.setFld _ d _ _ _ _).trans (RegsOut.sendVector _ _ _)))))

/-- Marks of a device-fatal event (R448). -/
theorem RegsOut.markFatal : RegsOut b (b.markFatal d n) d := by
  simp only [Blk.markFatal]
  refine RegsOut.trans ?_ ((RegsOut.setFlag _ d _ _ _).trans (RegsOut.setFlag _ d _ _ _))
  split
  · exact RegsOut.refl _ _
  · exact RegsOut.setFld _ _ _ _ _ _

end Blk

end Sys2Proof.Machine
end

