-- ==== Sys2Proof/Laws/Memory.lean ====
section
/-! SUPPORT. The two memories: reading back, and that every operation that writes one keeps the canonical form. -/

namespace Sys2Proof.Machine

open Sys2Proof

namespace State

variable (s : State)

/-- Nothing is listed at reset. -/
theorem memoryCanonical_reset : memoryCanonical State.reset := ⟨rfl, rfl⟩

/-- A change of the block alone. -/
theorem memoryCanonical_block (b : Blk) (h : memoryCanonical s) : memoryCanonical { s with b := b } := ⟨h.1, h.2⟩

/-- Other registers, another queue: the memories are what they were. -/
theorem memoryCanonical_congr {t : State} (hf : t.fmem = s.fmem) (hm : t.mem = s.mem) (h : memoryCanonical s) : memoryCanonical t := by
  unfold memoryCanonical; rw [hf, hm]; exact h

/-! ## Fabric memory -/

theorem storeLine_fmem (i l : Nat) (data : List Byte) :
    ∃ x : Line, (s.storeLine i l data).fmem = s.fmem.set l x Line.unlisted ∧ x.data = data ∧ x.init = false ∧ x.gen = (s.b.keyEnt .sw i).g := by
  refine ⟨{ init := false, gen := (s.b.keyEnt .sw i).g, data := data,
            key := match (s.b.keyEnt .sw i).cur with
              | some k => k.key
              | none => BitVec.ofNat 512 (Config.freeNat s.b.free) }, ?_, rfl, rfl, rfl⟩
  unfold storeLine
  cases h : (s.b.keyEnt .sw i).cur <;> simp only [h, Blk.fresh]

theorem storeLine_mem (i l : Nat) (data : List Byte) : (s.storeLine i l data).mem = s.mem := by
  unfold storeLine
  cases h : (s.b.keyEnt .sw i).cur <;> simp only [h, Blk.fresh]

/-- A line reads as what was stored, every other line as before. -/
theorem line_storeLine_other (i l m : Nat) (data : List Byte) (h : m ≠ l) : (s.storeLine i l data).line m = s.line m := by
  obtain ⟨x, hx, -⟩ := s.storeLine_fmem i l data
  unfold State.line
  rw [hx]
  exact Tbl.get_set_other _ _ _ _ _ _ h

theorem line_storeLine_same (i l : Nat) (data : List Byte) : ((s.storeLine i l data).line l).data = data := by
  obtain ⟨x, hx, hd, -⟩ := s.storeLine_fmem i l data
  unfold State.line
  rw [hx, Tbl.get_set_same, hd]

theorem memoryCanonical_storeLine (i l : Nat) (data : List Byte) (h : memoryCanonical s) : memoryCanonical (s.storeLine i l data) := by
  obtain ⟨x, hx, -⟩ := s.storeLine_fmem i l data
  refine ⟨?_, ?_⟩
  · rw [hx]; exact Tbl.wf_set _ _ _ _ h.1
  · rw [s.storeLine_mem]; exact h.2

theorem memoryCanonical_fmWriteLine (i pid off : Nat) (bytes : List Byte) (ecc : Ecc) (a : Nat × State) (l : Nat)
    (h : memoryCanonical a.2) : memoryCanonical (State.fmWriteLine i pid off bytes ecc a l).2 := by
  simp only [State.fmWriteLine]
  split
  · exact memoryCanonical_storeLine _ _ _ _ h
  · split
    · exact memoryCanonical_storeLine _ _ _ _ h
    · exact h

/-- A write to a window keeps the canonical form. -/
theorem memoryCanonical_fmWrite (i pid off : Nat) (bytes : List Byte) (ecc : Ecc) (h : memoryCanonical s) :
    memoryCanonical (s.fmWrite i pid off bytes ecc).2 := by
  unfold fmWrite
  generalize Blk.linesOf off bytes.length = ls
  suffices ∀ a : Nat × State, memoryCanonical a.2 → memoryCanonical (ls.foldl (State.fmWriteLine i pid off bytes ecc) a).2 from this _ h
  induction ls with
  | nil => intro a ha; exact ha
  | cons l r ih => intro a ha; exact ih _ (memoryCanonical_fmWriteLine i pid off bytes ecc a l ha)

/-- A read of a window changes neither memory. -/
theorem fmRead_memories (i pid off len : Nat) (ecc : Ecc) :
    (s.fmRead i pid off len ecc).2.2.fmem = s.fmem ∧ (s.fmRead i pid off len ecc).2.2.mem = s.mem := by
  constructor <;> simp only [fmRead]

/-- One step of the sweep keeps the canonical form. -/
theorem memoryCanonical_sweepOne (i : Nat) (ecc : Ecc) (h : memoryCanonical s) : memoryCanonical (s.sweepOne i ecc) := by
  unfold sweepOne
  simp only
  repeat' split
  all_goals first
    | exact memoryCanonical_congr s rfl rfl h
    | exact memoryCanonical_block _ _ (memoryCanonical_storeLine _ _ _ _ (memoryCanonical_block _ _ h))

/-- Clearing windows keeps the canonical form. -/
theorem memoryCanonical_clearWindows (h : memoryCanonical s) : memoryCanonical s.clearWindows := by
  unfold clearWindows
  split
  · exact h
  · exact ⟨Tbl.wf_filter _ _ _ h.1, h.2⟩

/-- Losing what HBM holds keeps the canonical form. -/
theorem memoryCanonical_loseHbm (d : Dev) (h : memoryCanonical s) : memoryCanonical (s.loseHbm d) := by
  cases d
  · exact ⟨rfl, h.2⟩
  · exact h

/-! ## The accelerator's memory -/

theorem memWrite_fmem (off : Nat) (bytes : List Byte) : (s.memWrite off bytes).fmem = s.fmem := rfl

theorem memWrite_b (off : Nat) (bytes : List Byte) : (s.memWrite off bytes).b = s.b := rfl

/-- Bytes written one after the other keep the canonical form. -/
theorem wf_writeBytes (bytes : List Byte) : ∀ (m : Tbl Byte) (off : Nat), m.wf 0#8 = true →
    Tbl.wf (bytes.foldl (fun (st : Tbl Byte × Nat) x => (st.1.set st.2 x 0#8, st.2 + 1)) (m, off)).1 0#8 = true := by
  induction bytes with
  | nil => intro m off h; exact h
  | cons x r ih => intro m off h; exact ih _ _ (Tbl.wf_set _ _ _ _ h)

theorem memoryCanonical_memWrite (off : Nat) (bytes : List Byte) (h : memoryCanonical s) : memoryCanonical (s.memWrite off bytes) :=
  ⟨h.1, wf_writeBytes bytes s.mem off h.2⟩

/-- What a byte reads after bytes are written one after the other. -/
theorem get_writeBytes (bytes : List Byte) : ∀ (m : Tbl Byte) (off a : Nat),
    (bytes.foldl (fun (st : Tbl Byte × Nat) x => (st.1.set st.2 x 0#8, st.2 + 1)) (m, off)).1.get a 0#8
      = if off ≤ a ∧ a < off + bytes.length then bytes.getD (a - off) 0#8 else m.get a 0#8 := by
  induction bytes with
  | nil => intro m off a; simp
  | cons x r ih =>
    intro m off a
    rw [List.foldl_cons, ih]
    by_cases h1 : a = off
    · subst h1; simp [Tbl.get_set_same]
    · rw [Tbl.get_set_other _ _ _ _ _ _ h1]
      by_cases h2 : off + 1 ≤ a ∧ a < off + 1 + r.length
      · have h3 : off ≤ a ∧ a < off + (x :: r).length := by simp; omega
        have h4 : a - off = (a - (off + 1)) + 1 := by omega
        rw [if_pos h2, if_pos h3, h4, List.getD_cons_succ]
      · have h3 : ¬ (off ≤ a ∧ a < off + (x :: r).length) := by simp; omega
        rw [if_neg h2, if_neg h3]

/-- A byte outside what was written reads as before; a byte inside reads as written. -/
theorem mem_memWrite (off a : Nat) (bytes : List Byte) :
    (s.memWrite off bytes).mem.get a 0#8 = if off ≤ a ∧ a < off + bytes.length then bytes.getD (a - off) 0#8 else s.mem.get a 0#8 :=
  get_writeBytes bytes s.mem off a

theorem epRead_memories (off len : Nat) (ecc : Ecc) :
    (s.epRead off len ecc).2.2.fmem = s.fmem ∧ (s.epRead off len ecc).2.2.mem = s.mem := by
  exact ⟨rfl, rfl⟩

/-- A write at the end point's home keeps the canonical form. -/
theorem memoryCanonical_epWrite (off : Nat) (bytes : List Byte) (ecc : Ecc) (h : memoryCanonical s) :
    memoryCanonical (s.epWrite off bytes ecc).2 := by
  unfold epWrite
  simp only
  split
  · exact h
  · exact memoryCanonical_block _ _ (memoryCanonical_memWrite _ _ _ h)

end State

end Sys2Proof.Machine
end

