-- ==== Sys2Proof/Laws/Ports.lean ====
section
/-! SUPPORT. Ports read back, and what the operations on ports and registers leave of each other. -/

namespace Sys2Proof.Machine

open Sys2Proof

namespace Blk

variable (b : Blk) (d e : Dev) (n m off hi lo v : Nat) (p : Port) (f : Port → Port) (w : W64) (x : Bool)

/-- A port reads as what was stored. -/
@[simp] theorem port_setPort_same : (b.setPort d n p).port d n = p := by
  unfold port setPort
  rw [core_modCore_same]
  exact Tbl.get_set_same (b.core d).ports n p Port.idle

/-- Any other port keeps its state. -/
theorem port_setPort_other (h : m ≠ n) : (b.setPort d n p).port d m = b.port d m := by
  unfold port setPort
  rw [core_modCore_same]
  exact Tbl.get_set_other (b.core d).ports n m p Port.idle Port.idle h

/-- The other part's ports keep their state. -/
theorem port_setPort_part (h : e ≠ d) : (b.setPort d n p).port e m = b.port e m := by
  unfold port setPort
  rw [core_modCore_other _ _ _ _ h]

@[simp] theorem port_modPort_same : (b.modPort d n f).port d n = f (b.port d n) := port_setPort_same _ _ _ _
theorem port_modPort_other (h : m ≠ n) : (b.modPort d n f).port d m = b.port d m := port_setPort_other _ _ _ _ _ h
theorem port_modPort_part (h : e ≠ d) : (b.modPort d n f).port e m = b.port e m := port_setPort_part _ _ _ _ _ _ h

/-! ## Registers are not ports -/

@[simp] theorem port_setReg : (b.setReg d off w).port e n = b.port e n := by cases d <;> cases e <;> rfl
@[simp] theorem port_putReg : (b.putReg d off v).port e n = b.port e n := port_setReg _ _ _ _ _ _
@[simp] theorem port_setFld : (b.setFld d off hi lo v).port e n = b.port e n := port_setReg _ _ _ _ _ _
@[simp] theorem port_setFlag : (b.setFlag d off m x).port e n = b.port e n := port_setReg _ _ _ _ _ _
@[simp] theorem port_count : (b.count d off hi lo v).port e n = b.port e n := port_setReg _ _ _ _ _ _
@[simp] theorem port_wrapCount : (b.wrapCount d off hi lo v).port e n = b.port e n := port_setReg _ _ _ _ _ _
@[simp] theorem port_emit (y : Emission) : (b.emit y).port e n = b.port e n := by cases e <;> rfl
@[simp] theorem port_modSw (g : Sw → Sw) : (b.modSw g).port e n = b.port e n := by cases e <;> rfl
@[simp] theorem port_modEp (g : Ep → Ep) : (b.modEp g).port e n = b.port e n := by cases e <;> rfl

@[simp] theorem reg_setPort : (b.setPort d n p).reg e off = b.reg e off := by cases d <;> cases e <;> rfl
@[simp] theorem reg_modPort : (b.modPort d n f).reg e off = b.reg e off := reg_setPort _ _ _ _ _ _
@[simp] theorem fld_modPort : (b.modPort d n f).fld e off hi lo = b.fld e off hi lo := by simp only [fld, reg_modPort]
@[simp] theorem setPort_out : (b.setPort d n p).out = b.out := by cases d <;> rfl
@[simp] theorem modPort_out : (b.modPort d n f).out = b.out := setPort_out _ _ _ _
@[simp] theorem setPort_sw : (b.setPort d n p).sw = b.sw := by cases d <;> rfl
@[simp] theorem modPort_sw : (b.modPort d n f).sw = b.sw := setPort_sw _ _ _ _
@[simp] theorem setPort_ep : (b.setPort d n p).ep = b.ep := by cases d <;> rfl
@[simp] theorem modPort_ep : (b.modPort d n f).ep = b.ep := setPort_ep _ _ _ _
@[simp] theorem setPort_now : (b.setPort d n p).now e = b.now e := by cases d <;> cases e <;> rfl
@[simp] theorem modPort_now : (b.modPort d n f).now e = b.now e := setPort_now _ _ _ _ _

/-- An operation that touches only registers and outputs leaves every port alone. -/
theorem RegsOut.port {b b' : Blk} {d : Dev} (h : RegsOut b b' d) (e : Dev) (n : Nat) : b'.port e n = b.port e n := by
  unfold Blk.port
  by_cases g : e = d
  · subst g; obtain ⟨r, hr⟩ := h.regs; simp only [hr]
  · rw [h.other e g]

/-- An error record leaves every port alone (R434). -/
@[simp] theorem port_errRecord (r : ErrRec) : (b.errRecord d r).port e n = b.port e n := (RegsOut.errRecord b d r).port e n

end Blk

end Sys2Proof.Machine
end

