-- ==== Sys2Proof/Laws/Waiting.lean ====
section
/-! SUPPORT. Commands that wait: where a calendar holds nothing back, and that trying again changes nothing where nothing waits. -/

namespace Sys2Proof.Machine

open Sys2Proof

namespace Blk

variable (b : Blk)

@[simp] theorem when_true (f : Blk → Blk) : b.when_ true f = f b := rfl
@[simp] theorem when_false (f : Blk → Blk) : b.when_ false f = b := rfl

/-- An egress without a calendar serves any partition. -/
theorem calMay_unnumbered (eq pid : Nat) (h : 16 ≤ b.calOf eq) : b.calMay eq pid = true := by simp [calMay, h]

/-- With no masked partition no calendar holds anything back (R371). -/
theorem calMay_unmasked (eq pid : Nat) (h : b.anyMasked = false) : b.calMay eq pid = true := by simp [calMay, h]

/-- What waits is kept in order of receipt. -/
@[simp] theorem waitSw_waiting (i : Instr) : (b.waitSw i).sw.waiting = b.sw.waiting ++ [i] := rfl

/-- Waiting leaves the end point as it was. -/
@[simp] theorem waitSw_ep (i : Instr) : (b.waitSw i).ep = b.ep := rfl

/-- Emptying an empty list of waiting commands changes nothing. -/
theorem modSw_waiting_nil (h : b.sw.waiting = []) : b.modSw (fun s => { s with waiting := [] }) = b := by
  rw [← h]
  rfl

/-- Nothing waits for the reduction complex: trying again changes nothing. -/
theorem collDrain_nil (h : b.sw.waiting = []) : b.collDrain = b := by
  unfold collDrain
  rw [modSw_waiting_nil b h, h]
  rfl

/-- Emptying a home's empty list of waiting commands changes nothing. -/
theorem modHome_waiting_nil (d : Dev) (h : (b.home d).waiting = []) :
    b.modHome d (fun x => { x with waiting := [] }) = b := by
  rw [← h]
  cases d <;> rfl

end Blk

/-- Nothing waits before a home: trying again changes nothing. -/
theorem State.retryHome_nil (s : State) (d : Dev) (h : (s.b.home d).waiting = []) : s.retryHome d = s := by
  unfold State.retryHome
  rw [Blk.modHome_waiting_nil s.b d h, h]
  rfl

/-- Nothing waits inside the switch: trying again changes nothing. -/
theorem State.resumeSw_nil (s : State) (hs : s.b.sw.waiting = []) (hh : (s.b.home .sw).waiting = []) : s.resumeSw = s := by
  have e := Blk.modSw_waiting_nil s.b hs
  unfold State.resumeSw
  simp only [hs, List.filter_nil, List.foldl_nil]
  rw [e, Blk.collDrain_nil s.b hs]
  exact State.retryHome_nil s .sw hh

end Sys2Proof.Machine
end

