-- ==== Sys2Proof/Tests/Slice0.lean ====
section
/-! SUPPORT. The model's own tests: fixtures (parts already running, with one partition, one context, one route, one collective
and the like), for every statement with hypotheses a theorem that shows states and operands meeting them, an ill-formed command for
each check of WellFormed, and small tests of single steps against values worked out from the spec. -/

set_option maxRecDepth 100000
set_option Elab.async false
set_option linter.unusedVariables false
set_option linter.all false

namespace Sys2Proof.Tests

open Sys2Proof Sys2Proof.Machine

/-! ## Fixtures -/

def Ok (r : Host.Outcome State Fault Refusal) (f : State → Bool) : Bool := match r with | .next t => f t | _ => false
abbrev Ans (i : Instr) (s : State) (b : Blk) : Prop := Ok (exec i s) (fun t => decide (t = { s with b := b })) = true
abbrev Nx (r : Host.Outcome State Fault Refusal) (u : State) : Prop := Ok r (fun t => decide (t = u)) = true
def part (b : Blk) (d : Dev) : Blk :=
  let b := b.modCore d (fun c =>
    let o := { c.boot with released := true, perst := false, romOk := true, fw := true, ident := true, started := true }
    { c with pcieUp := true, busMaster := true, msixEn := true, boot := o })
  (b.putReg d offStatus 0x8000).modCore d (fun c => { c with now := 1000000000, tctr := 1000000000 * 2 ^ 32 })
/-- Both parts running. -/
def base : State := let s := State.reset; { s with b := part (part s.b .sw) .ep }
def on (s : State) (f : Blk → Blk) : State := { s with b := f s.b }
/-- Port 3 of both parts UP, its wavelengths lit. -/
def upPort (d : Dev) (n : Nat) (b : Blk) : Blk :=
  let b := ((b.setFld d (offPort d n 0) 63 60 2).setFlag d (offPort d n 0) 48 true).setFlag d (offPort d n 8) 8 true
  (b.setFld d (offLsup d (b.lsupOf d n)) 63 60 6)
def upS : State := on base (fun b => upPort .ep 1 (upPort .sw 5 (upPort .sw 3 b)))
def dataFlit : Flit := mkFlit 1 0 false 0 0 0 false 0 []
def ctrlFlit : Flit := mkFlit 0 0 false 1 0 0 false 0 []
def heldF : HeldFlit := { lseq := 7, flit := dataFlit, at_ := 999990000, cont := none }
def replayS : State := on upS (fun b => b.modPort .sw 3 (fun p => { p with replay := [heldF], timerAt := 999998000, txNext := 8 }))
def substX : SubstOut := { wl := 8, amSeq := 4, at_ := 999000000, acked := false, cause := 2 }
def substS : State := on upS (fun b => (b.modPort .sw 3 (fun p => { p with subst := some substX })).setWl .sw 3 8 1 8)
def trainS : State := on upS (fun b => (b.setFld .sw (offPort .sw 3 0) 63 60 1).modPort .sw 3 (fun p => { p with txStripes := [0, 1, 2, 3], attemptAt := 980000000, gotNode := true, gotPort := true, gotMap := true }))
def trainS0 : State := on trainS (fun b => b.modPort .sw 3 (fun p => { p with gotNode := false, gotPort := false, gotMap := false }))
def waitS : State := on upS (fun b => (b.setFld .sw (offPort .sw 3 0) 63 60 1).modPort .sw 3 (fun p => { p with waiting := true, attemptAt := 900000000 }))
def drainS : State := on upS (fun b => (b.setFld .sw (offPort .sw 3 0) 25 16 2).modSw (fun s => { s with drain := [(.portRcv 3, 5)] }))
def wlS : State := on upS (fun b => b.setWl .sw 3 0 1 0)
def retS : State := on upS (fun b => b.setFld .sw (offPort .sw 3 0) 63 60 4)
def disS : State := on upS (fun b => (b.setFld .sw (offPort .sw 3 0) 63 60 0).setFlag .sw (offPort .sw 3 8) 8 false)
def patS : State := on upS (fun b => b.setFld .sw (offPort .sw 3 0) 63 60 5)
def lsupS : State := on upS (fun b => b.setFlag .sw (offLsup .sw 2) 61 true)
/-- Partition 5 as index 0 of the switch with every port and engine, memory window 0 of 2 MiB, and a key of generation 0 on both parts. -/
def keyed : KeyEnt := { KeyEnt.empty with used := true, g := 0, cur := some { id := 1, key := 7, masked := false } }
def withPart (b : Blk) : Blk :=
  let b := b.putReg .sw (offPartCfg 0 0) (2 ^ 63 + 5 * 2 ^ 44 + 4 * 2 ^ 18)
  let b := b.putReg .sw (offPartCfg 0 1) (2 ^ 64 - 1)
  let b := b.putReg .sw (offPartCfg 0 2) (255 + 0xFFFF * 2 ^ 8)
  let b := b.putReg .sw (offPartCfg 0 3) (2 ^ 64 - 1)
  let b := b.putReg .sw (offPartCfg 0 4) 255
  let b := (b.putKey .sw 0 keyed).putKey .ep 5 keyed
  let b := b.putReg .sw (offFmemWin 0) (2 ^ 63 + 1)
  let b := (b.putReg .ep (offHwinBase 0) 0).putReg .ep (offHwinCtl 0) (2 ^ 63 + 5 * 2 ^ 44)
  ((b.setFlag .sw offLathGlobal 61 true).setFld .sw offLathGlobal 60 47 9)
def partS : State := on upS withPart
def dl : Nat := setDeadline 1000000000 20000
def rq (op opq : Nat) (pl : List Byte) (off rd : Nat) (dst : Nat := 0) : Packet :=
  mkPacket { tc := 1, opcode := op, part := 5, plane := 0, dst := dst, src := 12, ctx := 3, seq := 4, tag := 1, deadline := dl, low := lowRequest off opq rd 0 true } false pl
def ecc0 : Ecc := { errs := [], moved := [] }
def mem1 : State := { partS with mem := [(0x40, 9#8), (0x41, 200#8)] }
def rdP := rq 1 0 [0#8] 0x40 7
def atP (op opq : Nat) := rq op opq [5#8, 1#8, 2#8, 3#8] 0x40 0
def casP := rq 6 3 [9#8, 200#8, 0#8, 0#8, 0#8, 0#8, 0#8, 0#8, 5#8, 1#8, 2#8, 3#8, 0#8, 0#8, 0#8, 1#8] 0x40 0
/-- FIRST_SEQ in the first two bytes, the flag's bytes from byte 8. -/
def topP := rq 3 0 [0#8, 4#8, 0#8, 0#8, 0#8, 0#8, 0#8, 0#8, 1#8, 2#8, 3#8, 4#8] 0x40 0
def topLate := rq 3 0 [0#8, 3#8, 0#8, 0#8, 0#8, 0#8, 0#8, 0#8, 1#8, 2#8, 3#8, 4#8] 0x40 0
def nx (r : Host.Outcome State Fault Refusal) : State := match r with | .next t => t | _ => base
def repS : State := nx (exec (.fetchAdd .ep 1 (atP 4 2) ecc0) mem1)
def repE : DsEnt := { key := Packet.stream (atP 4 2), seq := 4, op := 4, status := some 0, old := [9#8, 200#8, 0#8, 0#8], at_ := 999000000 }
def repS2 : State := on mem1 (fun b => b.modHome .ep (fun h => { h with ds := [repE] }))
def repE0 : DsEnt := { repE with at_ := 1000000000, status := none, old := [] }
def tallyS : State := on mem1 (fun b =>
  let b := (b.putReg .ep (offTallyCfg 7) (2 ^ 63 + 3 * 2 ^ 45)).putReg .ep (offTallyVal 7) (2 ^ 32 * 900 + 5)
  b.modCtx 3 (fun c => { c with desc := some { tagQuota := 16, fcEn := true, planeMask := 15, pasid := 44, partition := 5, streamQuota := 8, ringSize := 8, engineMask := 2 ^ 16 - 1, ringOff := 0, windows := [{ nodeLo := 0, nodeHi := 20, base := 0, limit := 2 ^ 20 }] } }))
def incP := mkPacket { tc := 1, opcode := 12, part := 5, plane := 0, dst := 0, src := 12, ctx := 3, seq := 4, tag := 1, deadline := dl, low := lowRequest 7 2 0 0 true } false [3#8, 0#8, 0#8, 0#8]
def heldT : HeldTop := { key := Packet.stream topLate, seq := 4, pkt := topLate, port := 1, limit := 100 }
def heldS : State := on mem1 (fun b => b.modHome .ep (fun h => { h with held := [heldT] }))
/-- Context 3 RESIDENT on engine 0 in partition 5; nodes 12 and 20 routed over plane 1, whose port has credits. -/
def ctxDesc : CtxDesc := { tagQuota := 16, fcEn := true, planeMask := 15, pasid := 44, partition := 5, streamQuota := 8, ringSize := 8, engineMask := 2 ^ 16 - 1, ringOff := 0, windows := [{ nodeLo := 0, nodeHi := 20, base := 0, limit := 2 ^ 20 }] }
def ctxS : State := on mem1 (fun b =>
  let b := b.setCtxState 3 2
  let b := (b.putReg .ep (offNode 12) (2 ^ 31 + 15)).putReg .ep (offNode 20) (2 ^ 31 + 15)
  let b := b.modPort .ep 1 (fun p => { p with credits := [(1, 64), (2, 64), (3, 64), (4, 64), (5, 64)] })
  b.modCtx 3 (fun c => { c with desc := some ctxDesc, engine := some 0 }))
def onC (f : Blk → Blk) : State := on ctxS f
def snoopX : Snoop := { id := 5, member := 1, node := 12, line := 1, lines := 2, part := 5, sentAt := 0, out := true }
def pendX : PendAns := { id := 3, key := Packet.stream (atP 4 2), seq := 4, pkt := atP 4 2, port := 1, status := 0, data := [1#8, 2#8, 3#8, 4#8], ucie := true, snoops := [5], expire := 100, isLocal := false, addDir := none, own := none, hop := .read 64 4 }
def topX : PendAns := { pendX with key := Packet.stream topP, seq := 4, pkt := topP, snoops := [], hop := .write 64 [1#8, 2#8, 3#8, 4#8] true }
/-- The topcoat of SEQ 4 waits for its accelerator; W of its stream is 3. -/
def topA : State := on mem1 (fun b => b.modHome .ep (fun h => { h with pend := [topX], streams := [{ key := topX.key, w := some 3, applied := [] }] }))
def pwS : State := on mem1 (fun b => b.modHome .ep (fun h => { h with pend := [{ topX with hop := .write 62 [1#8, 2#8, 3#8, 4#8] false }] }))
def snS : State := onC (fun b => (b.putReg .ep (offIsland 1) (2 ^ 63 + 12)).modEp (fun e => { e with snoops := [snoopX], dir := [{ line := 1, bits := 2 }], fc := [{ node := 12, line := 1, part := 5, gen := 0, data := zeros 64 }, { node := 12, line := 9, part := 5, gen := 0, data := zeros 64 }] }))
def pnS : State := on snS (fun b => b.modHome .ep (fun h => { h with pend := [pendX] }))
def paS : State := on snS (fun b => b.modHome .ep (fun h => { h with pend := [{ pendX with snoops := [] }] }))
def cohP (op cohOp lines : Nat) (all : Bool) : Packet :=
  mkPacket { tc := 0, opcode := op, part := 5, plane := 1, dst := 0, src := 12, deadline := dl, low := packBits [(44, 64), (4, cohOp), (6, lines - 1), (16, 5), (1, b2n all), (25, 0)] } false (zeros 32)
def rel0 : Rel := { id := 9, ctx := 3, eng := 2, covers := [], fail := none, flag := none, atomic := none, acq := none }
def relS (x : Rel) : State := onC (fun b => b.modEp (fun e => { e with rels := [x] }))
def fcS : State := onC (fun b => b.modEp (fun e => { e with fc := [{ node := 12, line := 1, part := 5, gen := 0, data := zeros 64 }, { node := 12, line := 9, part := 5, gen := 0, data := zeros 64 }, { node := 12, line := 1, part := 6, gen := 0, data := zeros 64 }] }))
def rqS (r : Req) : State := onC (fun b => b.modEp (fun e => { e with reqs := [r], nextReq := 50 }))
def w0 : Req := { Req.blank with id := 7, ctx := 3, why := .relStore 2, op := 2, wr := true, node := 12, off := 64, payload := [1#8, 2#8, 3#8, 4#8], cplEn := true, size_ := 4 }
def l0 : Req := { Req.blank with id := 7, ctx := 3, why := .load 2 4 8 false, op := 1, rd := true, node := 12, off := 64, rdBytes := 12 }
def sentR (r : Req) : Req := { r with sent := true, seq := 4, tag := some 1, tagGen := 0, plane := 1 }
def rsp (op tc status n : Nat) (pl : List Byte) : Packet :=
  mkPacket { tc := tc, opcode := op, part := 5, plane := 1, dst := 0, src := 12, ctx := 3, seq := 4, tag := 1, tagGen := 0, deadline := dl, low := lowResponse status 0 true false n 0 } false pl
def strX : Stream := { key := { src := 0, ctx := 3, epoch := 0, dst := 12, tc := 1 }, next := 5, out := [4], tops := 0, fails := [], cw := 40, units := 1, lastDec := 1, lastInc := 7 }
def qS (r : Req) : State := on (rqS r) (fun b => b.modCtx 3 (fun c => { c with desc := some { ctxDesc with tagQuota := 0 } }))
def cr0 : Req := { Req.blank with id := 7, ctx := 3, why := .copyRead 4 8 0, op := 1, rd := true, node := 12, off := 64, rdBytes := 32, order := 1 }
def cw0 : Req := { Req.blank with id := 8, ctx := 3, why := .prog 4, op := 2, wr := true, node := 12, off := 4096, size_ := 32, feeds := [7], cplEn := true, tally := 7, order := 2 }
/-- A COPY in progress of a context with no tag quota: its source READ and the write that waits for the data. -/
def cqS : State := on (qS cr0) (fun b => ((b.modEp (fun e => { e with reqs := [cr0, cw0] })).modCtx 3 (fun c => { c with prog := [{ ring := 4, qs := [2 ^ 60 + 2 ^ 59 + 7 * 2 ^ 47 + 32, 64, 4096], begun := true, left := 1, bytes := 0, ext := [] }] })).putReg .ep (offTallyCfg 7) (2 ^ 63 + 3 * 2 ^ 45))
def stS (k : Nat) : State := onC (fun b => b.setCtxState 3 k)
def q0D : Nat := packBits [(12, 0), (14, 16), (1, 0), (1, 1), (4, 15), (20, 44), (12, 5)]
def q1D : Nat := 8 * 2 ^ 20
def winD : List Byte := leBytes 8 (2 ^ 63 + 20 * 2 ^ 32) ++ leBytes 8 (100 * 2 ^ 32)
def descL : List Byte := leBytes 8 q0D ++ leBytes 8 q1D ++ zeros 48 ++ winD ++ zeros 112
def dS : State := on (stS 2) (fun b => (b.putReg .ep (offProd 3) 9).putReg .ep (offCons 3) 4)
def pD (qs : List Nat) : ProgDesc := { ring := 4, qs := qs, begun := false, left := 0, bytes := 0, ext := [] }
def progS (d : ProgDesc) : State := onC (fun b => (b.modCtx 3 (fun c => { c with prog := [d] })).putReg .ep (offTallyCfg 7) (2 ^ 63 + 3 * 2 ^ 45))
def fRec : FaultRec := { va := 4096, pasid := 44, cause := 1, status := 1, access := 1, source := 0, epoch := 0, ctx := 3, ring := 4, time := 5 }
def faultS (d : ProgDesc) : State := on (progS d) (fun b => (b.modCtx 3 (fun c => { c with faulted := some fRec })).setCtxState 3 4)
def tagX : TagEnt := { gen := 7, busy := true, ctx := 3, freeAt := some 0, orphan := true }
def atsX : AtsReq := { id := 6, ctx := 3, pasid := 44, va := 8192, rd := true, wr := false, phase := 0, at_ := 1, req := 0, stale := false }
def atsS (x : AtsReq) : State := onC (fun b => b.modEp (fun e => { e with ats := [x], atc := [{ pasid := 44, va := 4096, size := 4096, fabric := 64, rd := true, wr := true, at_ := 5 }, { pasid := 45, va := 4096, size := 4096, fabric := 64, rd := true, wr := true, at_ := 5 }] }))
/-- A begun COPY whose first page, 8192, has not been translated. -/
def cpD : ProgDesc := { pD [2 ^ 60 + 2 ^ 59 + 7 * 2 ^ 47 + 64, 8192, 16384] with begun := true }
def atsD : State := on (atsS atsX) (fun b => b.modCtx 3 (fun c => { c with prog := [cpD] }))
def parkX : Parked := { record := fRec, prev := 2, direct := none }
def parkS : State := onC (fun b => ((b.putReg .ep offFqBase 1).modEp (fun e => { e with ctxs := [(3, { (b.ctx 3) with parked := some parkX })] })).setCtxState 3 5)
def dgS : State := onC (fun b => ((((b.putReg .ep (offDgq 2 0) (2 ^ 63 + 15 * 2 ^ 56 + 5 * 2 ^ 44)).putReg .ep (offDgq 2 8) (2 ^ 12)).putReg .ep (offDgq 2 24) (2 ^ 13)).putReg .ep (offDgq 2 16) 9).putReg .ep (offDgq 2 32) 9 |>.modEp (fun e => { e with dgPlane := [(2, 1)] }))
def dgS0 : State := onC (fun b => (b.putReg .ep (offDgq 2 8) (2 ^ 12)).putReg .ep (offDgq 2 24) (2 ^ 13))
def entD : List Byte := zeros 8 ++ leBytes 2 60 ++ leBytes 2 12 ++ [2#8] ++ zeros 19
def dgP : Packet := mkPacket { tc := 7, opcode := 0x38, part := 5, plane := 1, dst := 0, src := 12, low := packBits [(14, 60), (4, 2), (78, 0)] } true (zeros 60)
def noteP : Packet := mkPacket { tc := 6, opcode := 0x32, part := 0, plane := 1, dst := 0, src := 12, low := 2 ^ 88 } false [0#8, 5#8, 1#8, 0#8, 0#8, 0#8, 0#8, 0#8]
/-- A route to node 20 over port 5 of the switch; queue limits and credits as reset. -/
def rtS : State := on ctxS (fun b => (b.putReg .sw (offRoute 20) (2 ^ 63 + 5 * 2 ^ 36)).modPort .sw 5 (fun p => { p with credits := [(1, 64), (2, 64), (6, 64)] }))
def swP (part : Nat) : Packet := mkPacket { tc := 1, opcode := 2, part := part, plane := 0, dst := 20, src := 12, ctx := 3, seq := 4, tag := 1, deadline := dl, low := lowRequest 64 0 0 0 true } false [1#8, 2#8]
def swHop : Packet := Packet.reseal (Packet.setH (swP 5) 146 144 5)
def vk (tc : Nat) : VoqKey := { src := 3, eq := 5, qset := 0, tc := tc }
def cpy (w : Reserve) : Copy := { id := 11, pkt := swP 5, src := 3, qset := 0, part := 5, cells := 1, refs := 1, have_ := Packet.slots (swP 5), stamp := 0, where_ := w, bad := none, asked := none, depths := [] }
def cpS (w : Reserve) : State := on rtS (fun b => (b.setFld .sw (offQueue 5 0 1) 54 43 1).modSw (fun s => { s with copies := [cpy w], voqs := [{ key := vk 1, ents := [11], avg := 0 }], nextCopy := 20 }))
def spS : State := on (cpS .carve) (fun b => b.modSw (fun s => { s with spills := [(11, vk 1)] }))
def smS : State := on rtS (fun b => b.modSw (fun s => { s with samples := [{ bytes := zeros 256, cells := 2, open_ := none }], sampleCells := 2 }))
def fbS : State := on (cpS .carve) (fun b => b.modSw (fun s => { s with voqs := [] }))
def tileS (f : Blk → Blk) : State := on rtS f
def b2S : State := on ctxS (fun b => (b.putReg .sw offBar2Sel (2 ^ 63)))
def swpS : State := on b2S (fun b => (((b.setFlag .sw (offFmemSweep 0) 25 true).setFld .sw (offFmemSweep 0) 63 26 5).setFld .sw (offFmemOld 0) 33 0 9).setFld .sw offHbmCarve 31 12 3)
def ltMsg : List Byte := leBytes 2 0x10 ++ leBytes 2 77 ++ zeros 4 ++ leBytes 8 8192 ++ leBytes 4 1472 ++ zeros 44
def ltS : State := on ctxS (fun b => b.modMbox .sw (fun m => { m with taken := [ltMsg] }))
def ltJ (i : Option (List Byte)) : LathJob := { msg := ltMsg, owner := none, image := i, partial_ := false, target := 0, idx := 0, newSlots := (0, 0), cleared := [] }
def ltJS (i : Option (List Byte)) : State := on ctxS (fun b => b.modLath (fun l => { l with job := some (ltJ i) }))
def patchB (b : Blk) (f : Patch → Patch) : Blk := b.modSw (fun s => { s with patch := f s.patch })
def sess (o : Bool) (a : Option Digest) : Session := { id := 1, open_ := o, agent := a, lastMsg := 0 }
def agX : Digest := BitVec.ofNat _ 9
def spdmB (d : Dev) (x : Session) (b : Blk) : Blk :=
  ((b.setFlag d offSecState 3 true).modCore d (fun c => { c with certOk := true })).modSpdm d (fun y => { y with algs := true, sessions := [x], nextId := 2 })
def spS1 (d : Dev) (o : Bool) (a : Option Digest) : State := on ctxS (spdmB d (sess o a))
/-- The same with a given key entry of partition 5 on both parts. -/
def kyS (e : KeyEnt) : State := on ctxS (fun b => ((spdmB .sw (sess true (some agX)) (spdmB .ep (sess true (some agX)) b)).putKey .sw 0 e).putKey .ep 5 e)
/-- The payload of a Genard command for partition 5: CMD, 0, PART_ID, zeros, arguments. -/
def gh (cmd : Nat) (args : List Byte := []) : GenardHead := { sess := 1, req := leBytes 1 cmd ++ [0#8] ++ leBytes 2 5 ++ zeros 4 ++ args }
/-- Arguments of INSTALL: SLOT, no mask, KEY_ID 2 and a key. -/
def insArgs : List Byte := zeros 80
def kv : KeyVal := { id := 2, key := 0, masked := false }
def ke (o : OtherSlot) : KeyEnt := { keyed with agent := some agX, other := o, otherKey := if o = .empty then none else some kv }
def ownArgs : List Byte := [1#8] ++ zeros 511 ++ leBytes 4 65537 ++ zeros 520
def offer : AlgOffer := { baseAsym := true, reqAsym := true, hash := true, measHash := true, dhe := true, aead := true, keySched := true }
/-- Slot 2 of partition 5, COLL_ID 0x77, two chunks, the last of 256 B, two legs on ports 3 and 5; role 0 alone at a member's switch, 1 a leaf, 2 between, 3 the root. -/
def collB (role st : Nat) (exp : Bool) (b : Blk) : Blk :=
  let child := b2n (decide (2 ≤ role))
  let b := b.putReg .sw (offColl 2 0) (role * 2 ^ 62 + b2n exp * 2 ^ 61 + 5 * 2 ^ 54 + 5 * 2 ^ 42 + 0x77 * 2 ^ 26 + 1 * 2 ^ 6)
  let b := b.putReg .sw (offColl 2 8) (3 * 2 ^ 57 + 1 * 2 ^ 33 + 5 * 2 ^ 16 + 1 * 2 ^ 4)
  let b := (b.putReg .sw (offColl 2 0x38) 4).putReg .sw (offColl 2 0x20) (b2n exp)
  let b := b.putReg .sw (offLeg 2 0) (2 ^ 63 + child * 2 ^ 62 + 3 * 2 ^ 55 + 12 * 2 ^ 41)
  let b := b.putReg .sw (offLeg 2 1) (2 ^ 63 + child * 2 ^ 62 + 5 * 2 ^ 55 + 20 * 2 ^ 41 + 1 * 2 ^ 27)
  let b := (b.putReg .sw (offMcast 1) (2 ^ 3 + 2 ^ 5)).putReg .sw (offMcast 1 + 8) (2 ^ 63 + 5 * 2 ^ 48)
  let b := b.setFld .sw (offColl 2 0x28) 63 48 0xFFF0
  b.setSlotState 2 st
def clS (role st : Nat) (exp : Bool) (f : Slot → Slot) : State := on rtS (fun b => (collB role st exp b).modSlot 2 f)
def scr (s : Slot) : Slot := { s with screed := true, joined := [0, 1] }
def blk1 : Block := { chunk := 1, acc := [], tagSum := 0, legs := [], result := none }
def retX : Retained := { bytes := zeros 256, status := 0, sentAt := 5 }
def cpk (op tc chunk flast : Nat) (long : Bool) (payload : List Byte) (tag : Option Nat := none) : Packet :=
  mkPacket { tc := tc, opcode := op, part := 5, plane := 0, dst := 16383, src := 12, low := lowColl 0x77 chunk 0 0 flast 0 } long payload tag
def ctl (op c arg chunk : Nat) (params : List Byte) (mask : List Byte) : Packet := cpk op 0 chunk 0 false (Blk.ctlPayload c arg params mask)
def ctb : Packet := cpk 0x20 4 1 0 true ([0#8, 0#8, 128#8, 63#8] ++ zeros 252) (some 17)
def legX : LegRec := { frags := [(0, 1)], doneAt := none, lastAt := 5 }
def ptb : Packet := cpk 0x21 4 64 0 true ([3#8] ++ zeros 1279) (some 17)
def expP : Packet := cpk 0x22 4 0 0 false [0x7F#8, 0xFF#8, 0x00#8, 0x05#8]
def cd4 : ProgDesc := { ring := 4, qs := [4 * 2 ^ 60 + 256, 0, 4096, 1 * 2 ^ 30 + 0x77], begun := true, left := 0, bytes := 0, ext := [] }
def crec : ContribRec := { first := 0, count := 1, src := 0, dst := 4096, len := 256, cplEn := false, tally := 0, dtype := 0 }
def prm : CollParams := { nchunks := 1, exp := false, lastUnits := 1, win := 4, timeout := 5 }
def ce0 : CollEnt := { id := 4, ctx := 3, plane := 1, collId := 0x77, member := 0, code := 0, params := none, screed := none, fm := 0, closed := false, descs := [crec], chunks := [], unround := [], unroundFrom := 0, toSend := [], recon := [], nextChunk := 1, lastPkt := 5, resendAt := 5 }
def ce1 : CollEnt := { ce0 with params := some prm, screed := some (-16, 128, 0) }
def ch0 : MemChunk := { sent := true, mask := 0, carried := 0, writes := [], held := [], status := none, nacks := 0, nackFrom := none, credited := false, unread := false }
/-- An entry of context 3 with its program; the first two pages are translated. -/
def meS (x : CollEnt) (prog : List ProgDesc) : State :=
  onC (fun b => (b.modCtx 3 (fun c => { c with prog := prog })).modEp (fun e => { e with colls := [x], atc := [{ pasid := 44, va := 0, size := 8192, fabric := 0, rd := true, wr := true, at_ := 5 }] }))
def mpk (op tc chunk frag flast st : Nat) (long : Bool) (payload : List Byte) (tag : Option Nat := none) : Packet :=
  mkPacket { tc := tc, opcode := op, part := 5, plane := 1, dst := 16383, src := 16383, low := lowColl 0x77 chunk 0 frag flast st } long payload tag
def mctl (op c arg chunk : Nat) (params : List Byte) (mask : List Byte) : Packet := mpk op 0 chunk 0 0 0 false (Blk.ctlPayload c arg params mask)
def jrp : Packet := mctl 0x25 3 0 0 [0#8, 0#8, 0#8, 0#8, 0#8, 0#8, 3#8, 0#8, 0#8, 5#8] []
def jrpBad : Packet := mctl 0x25 3 0 0 [0#8, 0#8, 0#8, 0#8, 0#8, 1#8, 3#8, 0#8, 0#8, 5#8] []
def mscr (dt : Nat) : Packet := mpk 0x23 5 0 0 0 0 false [0xFF#8, 0xF0#8, 0#8, BitVec.ofNat 8 dt]
def res (st : Nat) : Packet := mpk 0x24 5 0 0 0 st true (zeros 256)
def mb (f : Mbox → Mbox) (b : Blk) : Blk := b.modMbox .sw f
def full (b : Blk) : Blk := b.setFlag .sw offMboxCtl 1 true
def onM (f : Mbox → Mbox) : State := on rtS (fun b => full (mb f b))
def pingM : List Byte := leBytes 2 1 ++ leBytes 2 77 ++ zeros 60
def msg (c : Nat) (args : List Byte) : List Byte := padTo 64 (leBytes 2 c ++ leBytes 2 77 ++ zeros 4 ++ args)
def tk (m : List Byte) : State := on rtS (mb (fun x => { x with taken := [pingM, m] }))
def tk1 (m : List Byte) : State := on rtS (mb (fun x => { x with taken := [m] }))
def lk (s : State) : State := on s (fun b => b.setFlag .sw offSecState 0 true)
def ackX : Ack := { token := 9, msg := 1, code := 2, resp := [5#8] }
/-- Partition index 0 in state k (1 RUNNING, 2 ABORTING, 3 ABORTED). -/
def pstS (k : Nat) : State := on (clS 1 2 false scr) (fun b => (((b.setFld .sw (offPartState 0) 1 0 k).setFlag .sw (offPartCfg 0 0) 63 true).modHome .sw (fun h => { h with held := [heldT] })))
def tp (op src : Nat) (link : Bool) (pl : List Byte) : Packet := mkPacket { tc := 6, opcode := op, part := 0, plane := 0, dst := 0, src := src, low := Blk.timeLow 33 link true 2 } false pl
def srcS (sy : Option SyncOut) : State := on rtS (fun b => (b.setFld .sw offTimeCtl 63 62 2 |>.setFld .sw offTimeCtl 61 55 3).modServo .sw (fun v => { v with sync := sy, nextId := 33 }))
def sy33 : SyncOut := { id := 33, t1 := 65536000000000, port := 3, at_ := 999990000 }
def holdS (h : Hold) : State := on rtS (fun b => ((b.modSw (fun s => { s with hold := h })).setFld .sw offCptStatus 49 48 1).setFlag .sw offStatus 12 true)
def h0 : Hold := { causes := [1], began := 900000000, riseAt := none, minVin := 2100 }
def mskS : State := on rtS (fun b => b.setFlag .sw (offPartCfg 0 0) 62 true)
def bootS (d : Dev) (f : Boot → Boot) : State := on rtS (fun b => b.modBoot d f)

/-! ## Witnesses of the statements' hypotheses -/

/-- An answer that is a next state is the one `nx` reads from it. -/
theorem next_of_ok {r : Host.Outcome State Fault Refusal} (h : Ok r (fun _ => true) = true) : r = .next (nx r) := by
  cases r <;> simp_all [Ok, nx]

/-- With no entry of the UE list valid, no line is found in it. -/
theorem ueFind_none (b : Blk) (h : (upto 64).all (fun n => !b.ueValid n) = true) : ∀ l, b.ueFind l = none := by
  intro l
  simp only [List.all_eq_true] at h
  simp only [Blk.ueFind, List.find?_eq_none]
  intro n hn
  have := h n hn
  simp_all

/-- With no line listed, every line is the unlisted one. -/
theorem line_unlisted (s : State) (h : s.fmem = []) (l : Nat) : s.line l = Line.unlisted := by
  simp only [State.line, h]; rfl

theorem witness_QueueUntouched : ∃ (s t : State) (i : Instr), exec i s = .next t :=
  ⟨rtS, _, .ping .sw, next_of_ok (by decide +kernel)⟩

/-- The repeated request is an atomic, and its entry is the one the first execution left. -/
theorem witness_RepeatChangesNoMemory : ∃ (s t : State) (d : Dev) (port : Nat) (p : Packet) (ecc : Ecc) (e : DsEnt),
    s.b.soundAt d p = true ∧ s.b.findDs d (Packet.stream p) (Packet.seq p) = some e ∧ exec (.fetchAdd d port p ecc) s = .next t :=
  ⟨repS, _, .ep, 1, atP 4 2, ecc0, repE0, by decide +kernel, by decide +kernel, next_of_ok (by decide +kernel)⟩

/-- A packet that is forwarded, with the copy it leaves, and one that has crossed five switches. -/
theorem witness_HopsCounted :
    (∃ (s t : State) (port : Nat) (p : Packet) (c : Copy), Packet.hops p < 5 ∧ s.b.sw.lanes.get port [] = [] ∧ exec (.switchIngress port p) s = .next t ∧
      c ∈ t.b.sw.copies) ∧
    (∃ (s t : State) (port : Nat) (p : Packet), Packet.hcrcOk p = true ∧ Packet.linkLocal p = false ∧
      Packet.hops p = 5 ∧ s.b.sw.lanes.get port [] = [] ∧ exec (.switchIngress port p) s = .next t) :=
  ⟨⟨rtS, _, 3, swP 5, (nx (exec (.switchIngress 3 (swP 5)) rtS)).b.sw.copies.getLastD (cpy .carve), by decide +kernel, by decide +kernel,
    next_of_ok (by decide +kernel), by decide +kernel⟩,
   ⟨rtS, _, 3, swHop, by decide +kernel, by decide +kernel, by decide +kernel, by decide +kernel, next_of_ok (by decide +kernel)⟩⟩

/-- A write across the end of line 0; line 2 is the first line it leaves alone. -/
theorem witness_Bar2WriteFrame : ∃ (s t : State) (off : Nat) (bytes : List Byte) (ecc : Ecc) (l : Nat),
    exec (.bar2Write off bytes ecc) s = .next t ∧ (64 * l + 64 ≤ off ∨ off + bytes.length ≤ 64 * l ∨ bytes = []) :=
  ⟨b2S, _, 125, [1#8, 2#8, 3#8], ecc0, 2, next_of_ok (by decide +kernel), by decide⟩

theorem witness_MemoryCanonicalKept : ∃ (s t : State), memoryCanonical s ∧ step s = .next t :=
  ⟨{ b2S with pending := [.bar2Write 60 [1#8, 2#8] ecc0] }, _, by decide +kernel, next_of_ok (by decide +kernel)⟩

/-- A read of a window no line of which has been written. -/
theorem witness_FabricMemoryCompletes_read : ∃ (s : State) (i off len : Nat), s.b.inRun .sw = true ∧ s.bar2Waits off len = false ∧
    s.b.bar2Part off len = some i ∧ s.fmem = [] ∧ (∀ l, s.b.ueFind l = none) ∧ s.b.sw.badLines = [] :=
  ⟨b2S, 0, 60, 8, by decide +kernel, by decide +kernel, by decide +kernel, by decide +kernel, ueFind_none _ (by decide +kernel),
    by decide +kernel⟩

/-- Eight bytes over the border of lines 0 and 1. -/
theorem witness_FabricReadBack : ∃ (s : State) (i off : Nat) (bytes : List Byte) (k : KeyVal), bytes.length = 8 ∧ s.b.inRun .sw = true ∧
    s.bar2Waits off bytes.length = false ∧ s.b.bar2Part off bytes.length = some i ∧ (s.b.keyEnt .sw i).cur = some k ∧
    (∀ l, s.b.ueFind l = none) ∧ s.b.sw.badLines = [] ∧
    (∀ l, (s.line l).init = true ∨ ((s.line l).gen = (s.b.keyEnt .sw i).g ∧ (s.line l).data.length = 64)) :=
  ⟨b2S, 0, 60, [1#8, 2#8, 3#8, 4#8, 5#8, 6#8, 7#8, 8#8], { id := 1, key := 7, masked := false }, by decide +kernel, by decide +kernel,
    by decide +kernel, by decide +kernel, by decide +kernel, ueFind_none _ (by decide +kernel), by decide +kernel,
    fun l => Or.inl (by rw [line_unlisted b2S (by decide +kernel)]; rfl)⟩

/-- A read of the refused port's other registers, at the register beside its control word. -/
theorem witness_PortCommandRefused_other : ∃ (s : State) (d : Dev) (port off : Nat), hasPort d port = true ∧ Served s.b d ∧
    off ≠ offPort d port 8 :=
  ⟨patS, .sw, 3, offPort .sw 3 0, by decide +kernel, by decide +kernel, by decide +kernel⟩

/-- A held WRITE of four bytes over a line's border whose accelerator has not answered. -/
theorem witness_EndPointHomeMemory_answer : ∃ (s : State) (x : PendAns), s.b.ep.home.pend = [x] ∧ x.ucie ∧ x.own = none ∧
    x.isLocal = false ∧ s.b.ep.badMem = [] ∧ s.b.ep.home.held = [] ∧ s.b.ep.home.waiting = [] ∧
    x.hop = .write 62 [1#8, 2#8, 3#8, 4#8] false :=
  ⟨pwS, { topX with hop := .write 62 [1#8, 2#8, 3#8, 4#8] false }, by decide +kernel⟩

/-- States and operands that meet the hypotheses of StepRunsFrontCommand, clause by clause. -/
theorem witness_StepRunsFrontCommand :
    (∃ (s : State) (c : Instr) (rest : List Instr), s.pending = c :: rest) := by
  exact ⟨{ rtS with pending := [.abortAll .ep, .ping .sw] }, .abortAll .ep, [.ping .sw], by (try dsimp only) <;> decide +kernel⟩

/-- States and operands that meet the hypotheses of HostAccessesComplete, clause by clause. -/
theorem witness_HostAccessesComplete :
    (∃ (s : State) (d : Dev) (off size v : Nat), hasBar0 d off ∧ s.b.clocked d ∧ Blk.goodAccess off size ∧ 0x10000 ≤ off ∧ off < 0x20000) ∧
    (∃ (s : State) (d : Dev) (off size v : Nat), hasBar0 d off ∧ Served s.b d ∧ Blk.goodAccess off size ∧ (off < 0x10000 ∨ 0x20000 ≤ off)) ∧
    (∃ (s : State) (d : Dev) (off size v : Nat), hasBar0 d off ∧ s.b.clocked d ∧ s.b.ready d = false ∧ Blk.goodAccess off size ∧ (off < 0x10000 ∨ 0x20000 ≤ off)) ∧
    (∃ (s : State) (d : Dev) (v : Nat), Served s.b d ∧ v % 2 = 0) ∧
    (∃ (s : State) (d : Dev), s.b.clocked d) ∧
    (∃ (s : State) (d : Dev) (off size : Nat) (ecc : Ecc), hasBar0 d off ∧ s.b.clocked d ∧ Blk.goodAccess off size ∧ ecc.ue = [] ∧ ecc.ce = [] ∧ s.b.sw.badLines = []) ∧
    (∃ (s : State) (d : Dev) (ecc : Ecc), s.b.clocked d) ∧
    (∃ (s : State) (d : Dev) (off size : Nat), hasBar0 d off ∧ s.b.clocked d ∧ Blk.goodAccess off size = false) ∧
    (∃ (s : State) (d : Dev) (v : Nat), hasVector v ∧ Served s.b d) := by
  refine ⟨?_, ?_, ?_, ?_, ?_, ?_, ?_, ?_, ?_⟩
  · exact ⟨rtS, .sw, 0x10000, 8, 7, by (try dsimp only) <;> decide +kernel⟩
  · exact ⟨rtS, .sw, offTimeCtl, 8, 7, by (try dsimp only) <;> decide +kernel⟩
  · exact ⟨on rtS (fun b => b.setFlag .sw offStatus 15 false), .sw, offTimeCtl, 8, 7, by (try dsimp only) <;> decide +kernel⟩
  · exact ⟨rtS, .sw, 2^64 - 2, by (try dsimp only) <;> decide +kernel⟩
  · exact ⟨rtS, .sw, by (try dsimp only) <;> decide +kernel⟩
  · exact ⟨rtS, .sw, offTimeNs, 4, ecc0, by (try dsimp only) <;> decide +kernel⟩
  · exact ⟨rtS, .sw, ecc0, by (try dsimp only) <;> decide +kernel⟩
  · exact ⟨rtS, .sw, 0x13, 8, by (try dsimp only) <;> decide +kernel⟩
  · exact ⟨on rtS (fun b => b.setFlag .sw offMsixPba 5 true), .sw, 5, by (try dsimp only) <;> decide +kernel⟩

/-- States and operands that meet the hypotheses of ResetsAndStartUpComplete, clause by clause. -/
theorem witness_ResetsAndStartUpComplete :
    (∃ (s : State) (d : Dev), (s.b.boot d).perst = false ∧ (s.b.boot d).uv = false ∧ ((s.b.boot d).halt = .clockLost → (s.b.boot d).noRef = false)) ∧
    (∃ (s : State) (d : Dev), (s.b.boot d).noRef = false ∧ (s.b.boot d).uv = false ∧ (s.b.boot d).released = false) ∧
    (∃ (s : State) (d : Dev) (up : Bool), s.b.clocked d) ∧
    (∃ (s : State) (d : Dev) (c : ClockCause), hasCause c ∧ (s.b.boot d).released ∧ (s.b.boot d).halt = .none) ∧
    (∃ (s : State) (d : Dev), (s.b.boot d).halt = .clockLost ∧ (s.b.boot d).resetDue = false) ∧
    (∃ (s : State) (d : Dev) (dg : Digest), s.b.inRun d ∧ (s.b.boot d).romOk = false ∧ s.b.recovery d = false) ∧
    (∃ (s : State) (d : Dev) (failed : List Nat), s.b.inRun d ∧ (s.b.boot d).romOk ∧ (s.b.boot d).fw = false) ∧
    (∃ (s : State) (d : Dev), s.b.inRun d ∧ (s.b.boot d).fw ∧ (s.b.boot d).ident = false ∧ s.b.flag d offSecState 2 = false) ∧
    (∃ (s : State) (d : Dev), s.b.inRun d ∧ (s.b.boot d).fw ∧ (s.b.boot d).ident = false ∧ s.b.flag d offSecState 2 = false) ∧
    (∃ (s : State) (d : Dev) (cmd off : Nat), s.b.clocked d ∧ (s.b.boot d).noRef = false ∧ (cmd, off) ∈ [(0x10, offStatus), (0x11, offCptStatus), (0x12, offPwrStatus)]) ∧
    (∃ (s : State) (vin : Nat), vin < 1900 ∧ s.b.swc.boot.uv = false) ∧
    (∃ (s : State) (held : Bool), s.b.swc.boot.uv ∧ s.b.swc.boot.perst = false ∧ s.b.swc.boot.noRef = false ∧ s.b.swc.boot.released = false) ∧
    (∃ (s : State), s.b.epc.boot.uv = false) ∧
    (∃ (s : State), s.b.epc.boot.uv ∧ s.b.epc.boot.perst = false ∧ s.b.epc.boot.noRef = false ∧ s.b.epc.boot.released = false) ∧
    (∃ (s : State) (valid : Bool), s.b.inRun .sw ∧ s.b.swc.boot.fw ∧ s.b.swc.boot.ident ∧ s.b.swc.boot.started = false ∧ s.b.sw.lath.heldMsg = none) ∧
    (∃ (s : State), s.b.inRun .ep ∧ s.b.epc.boot.fw ∧ s.b.ep.trained = false) ∧
    (∃ (s : State) (m : Nat), s.b.inRun .ep ∧ s.b.ep.trained ∧ hasModule m) ∧
    (∃ (s : State) (m : Nat), s.b.inRun .ep ∧ hasModule m) := by
  refine ⟨?_, ?_, ?_, ?_, ?_, ?_, ?_, ?_, ?_, ?_, ?_, ?_, ?_, ?_, ?_, ?_, ?_, ?_⟩
  · exact ⟨rtS, .sw, by (try dsimp only) <;> decide +kernel⟩
  · exact ⟨State.reset, .sw, by (try dsimp only) <;> decide +kernel⟩
  · exact ⟨rtS, .ep, true, by (try dsimp only) <;> decide +kernel⟩
  · exact ⟨rtS, .sw, ClockCause.pll 6, by (try dsimp only) <;> decide +kernel⟩
  · exact ⟨bootS .sw (fun o => { o with halt := .clockLost }), .sw, by (try dsimp only) <;> decide +kernel⟩
  · exact ⟨bootS .sw (fun o => { o with romOk := false, fw := false }), .sw, (7 : Digest), by (try dsimp only) <;> decide +kernel⟩
  · exact ⟨bootS .sw (fun o => { o with fw := false }), .sw, [19], by (try dsimp only) <;> decide +kernel⟩
  · exact ⟨bootS .sw (fun o => { o with ident := false }), .sw, by (try dsimp only) <;> decide +kernel⟩
  · exact ⟨bootS .ep (fun o => { o with ident := false }), .ep, by (try dsimp only) <;> decide +kernel⟩
  · exact ⟨rtS, .sw, 0x12, offPwrStatus, by (try dsimp only) <;> decide +kernel⟩
  · exact ⟨rtS, 1899, by (try dsimp only) <;> decide +kernel⟩
  · exact ⟨on State.reset (fun b => b.modBoot .sw (fun o => { o with uv := true, perst := false })), false, by (try dsimp only) <;> decide +kernel⟩
  · exact ⟨rtS, by (try dsimp only) <;> decide +kernel⟩
  · exact ⟨on State.reset (fun b => b.modBoot .ep (fun o => { o with uv := true, perst := false })), by (try dsimp only) <;> decide +kernel⟩
  · exact ⟨bootS .sw (fun o => { o with started := false }), true, by (try dsimp only) <;> decide +kernel⟩
  · exact ⟨bootS .ep (fun o => { o with started := false }), by (try dsimp only) <;> decide +kernel⟩
  · exact ⟨on rtS (fun b => b.modEp (fun e => { e with trained := true })), 3, by (try dsimp only) <;> decide +kernel⟩
  · exact ⟨rtS, 3, by (try dsimp only) <;> decide +kernel⟩

/-- States and operands that meet the hypotheses of SupplyCompletes, clause by clause. -/
theorem witness_SupplyCompletes :
    (∃ (s : State) (vin : Nat), s.b.inRun .sw ∧ vin < 2150 ∧ s.b.sw.hold.causes = []) ∧
    (∃ (s : State) (vin : Nat), s.b.inRun .sw ∧ 2200 < vin ∧ 1 ∈ s.b.sw.hold.causes ∧ s.b.sw.hold.riseAt = none) ∧
    (∃ (s : State) (vin : Nat), s.b.inRun .sw ∧ 2150 ≤ vin ∧ vin < 2200 ∧ 1 ∈ s.b.sw.hold.causes ∧ s.b.supplyBack = false) ∧
    (∃ (s : State) (mean10 : Nat) (tjMax10 : Int), s.b.inRun .sw ∧ s.b.sw.hold.causes ≠ [] ∧ (∀ c ∈ s.b.sw.hold.causes, c = 1 ∧ s.b.supplyBack ∨ c = 2 ∧ mean10 + 70 < s.b.limitW ∨ c = 3 ∧ tjMax10 < 100)) ∧
    (∃ (s : State), s.b.inRun .sw ∧ s.b.fld .sw offCptStatus 49 48 = 1 ∧ s.b.sw.hold.began + 50000000 ≤ s.b.now .sw) ∧
    (∃ (s : State) (mean : Nat), s.b.inRun .sw ∧ s.b.fld .sw offPwrStatus 31 29 = 7 ∧ s.b.limitW + 30 ≤ mean) ∧
    (∃ (s : State) (tj : Int), s.b.inRun .sw ∧ 110 ≤ tj) ∧
    (∃ (s : State) (p : Nat) (tj : Int), s.b.inRun .sw ∧ s.b.anyMasked = false ∧ s.b.sw.thrAt + 1000000 ≤ s.b.now .sw) ∧
    (∃ (s : State) (p : Nat), s.b.inRun .sw ∧ s.b.anyMasked ∧ s.b.timeNs .sw / 100000000 ≠ s.b.sw.thrNo) ∧
    (∃ (s : State) (d : Dev) (tj : Int), s.b.clocked d ∧ 95 ≤ tj) ∧
    (∃ (s : State) (d : Dev) (tj : Int), s.b.clocked d ∧ 120 ≤ tj) := by
  refine ⟨?_, ?_, ?_, ?_, ?_, ?_, ?_, ?_, ?_, ?_, ?_⟩
  · exact ⟨rtS, 2149, by (try dsimp only) <;> decide +kernel⟩
  · exact ⟨holdS h0, 2201, by (try dsimp only) <;> decide +kernel⟩
  · exact ⟨holdS h0, 2150, by (try dsimp only) <;> decide +kernel⟩
  · exact ⟨holdS { h0 with causes := [1, 2], riseAt := some 999000000 }, 0, 99, by (try dsimp only) <;> decide +kernel⟩
  · exact ⟨holdS h0, by (try dsimp only) <;> decide +kernel⟩
  · exact ⟨on rtS (fun b => b.setFld .sw offPwrStatus 31 29 7), (on rtS (fun b => b.setFld .sw offPwrStatus 31 29 7)).b.limitW + 30, by (try dsimp only) <;> decide +kernel⟩
  · exact ⟨rtS, 110, by (try dsimp only) <;> decide +kernel⟩
  · exact ⟨rtS, (rtS).b.limitW - 70, 94, by (try dsimp only) <;> decide +kernel⟩
  · exact ⟨mskS, (mskS).b.limitW - 70, by (try dsimp only) <;> decide +kernel⟩
  · exact ⟨rtS, .ep, 95, by (try dsimp only) <;> decide +kernel⟩
  · exact ⟨rtS, .sw, 120, by (try dsimp only) <;> decide +kernel⟩

/-- States and operands that meet the hypotheses of AbortAndTimeComplete, clause by clause. -/
theorem witness_AbortAndTimeComplete :
    (∃ (s : State), Served s.b .sw) ∧
    (∃ (s : State), Served s.b .ep) ∧
    (∃ (s : State) (i : Nat), hasIndex i ∧ Served s.b .sw ∧ s.b.pstate i = 1) ∧
    (∃ (s : State) (i : Nat), hasIndex i ∧ Served s.b .sw ∧ 2 ≤ s.b.pstate i) ∧
    (∃ (s : State) (i : Nat), hasIndex i ∧ Served s.b .sw ∧ s.b.pstate i = 0) ∧
    (∃ (s : State) (i : Nat), hasIndex i ∧ Served s.b .sw ∧ s.b.pstate i = 3) ∧
    (∃ (s : State) (i : Nat), hasIndex i ∧ Served s.b .sw ∧ s.b.pstate i ≠ 3) ∧
    (∃ (s : State) (i : Nat), hasIndex i ∧ s.b.pstate i = 2) ∧
    (∃ (s : State) (d : Dev) (port : Nat) (p : Packet), hasPort d port ∧ s.b.serving d ∧ s.b.portUp d port ∧ Packet.hcrcOk p ∧ Packet.malformed p = false ∧ (d = .ep → s.b.lateAt .ep p = false) ∧ Packet.linkLocal p ∧ Packet.opcode p = 0x30) ∧
    (∃ (s : State) (d : Dev) (port : Nat) (p : Packet), let b := s.b.owe d port (Packet.tc p) (Packet.slots p); hasPort d port ∧ s.b.serving d ∧ s.b.portUp d port ∧ Packet.hcrcOk p ∧ Packet.malformed p = false ∧ (d = .ep → s.b.lateAt .ep p = false) ∧ d = .ep ∧ Packet.linkLocal p = false ∧ b.mine p ∧ Packet.opcode p = 0x30) ∧
    (∃ (s : State) (d : Dev) (port : Nat) (p : Packet), hasPort d port ∧ s.b.serving d ∧ s.b.portUp d port ∧ Packet.hcrcOk p ∧ Packet.malformed p = false ∧ (d = .ep → s.b.lateAt .ep p = false) ∧ Packet.linkLocal p ∧ Packet.opcode p = 0x31) ∧
    (∃ (s : State) (d : Dev) (port : Nat) (p : Packet), ∃ x, let t2 := beNat (slice p.payload 0 10); let t3 := beNat (slice p.payload 10 10); let delay : Int := (toSigned 80 (s.b.stamp d + 2 ^ 80 - x.t1) - toSigned 80 (t3 + 2 ^ 80 - t2)) / 2; hasPort d port ∧ s.b.serving d ∧ s.b.portUp d port ∧ Packet.hcrcOk p ∧ Packet.malformed p = false ∧ (d = .ep → s.b.lateAt .ep p = false) ∧ (s.b.core d).servo.sync = some x ∧ x.port = port ∧ x.id = Packet.f p 127 112 ∧ s.b.timeSrc d = 2 ∧ s.b.now d ≤ x.at_ + 100000 ∧ 0 ≤ delay ∧ delay ≤ 655360000) ∧
    (∃ (s : State) (d : Dev) (port : Nat) (p : Packet), ∃ x, hasPort d port ∧ s.b.serving d ∧ s.b.portUp d port ∧ Packet.hcrcOk p ∧ Packet.malformed p = false ∧ (d = .ep → s.b.lateAt .ep p = false) ∧ (s.b.core d).servo.sync = some x ∧ x.port = port ∧ x.id = Packet.f p 127 112 ∧ s.b.timeSrc d = 2) ∧
    (∃ (s : State) (d : Dev), ∃ n, s.b.servoRuns d ∧ s.b.timeSrc d = 2 ∧ s.b.srcPort d = some n ∧ (s.b.core d).servo.lastSync + 1000000 ≤ s.b.now d) ∧
    (∃ (s : State) (d : Dev), s.b.servoRuns d ∧ s.b.timeSrc d = 2 ∧ (s.b.core d).servo.lost = false ∧ (s.b.core d).servo.lastGood + 10000000 ≤ s.b.now d) ∧
    (∃ (s : State), s.b.servoRuns .sw) ∧
    (∃ (s : State), s.b.servoRuns .sw ∧ s.b.timeSrc .sw = 1) ∧
    (∃ (s : State) (d : Dev) (v : Nat), Served s.b d) ∧
    (∃ (s : State) (d : Dev), s.b.clocked d) := by
  refine ⟨?_, ?_, ?_, ?_, ?_, ?_, ?_, ?_, ?_, ?_, ?_, ?_, ?_, ?_, ?_, ?_, ?_, ?_, ?_⟩
  · exact ⟨pstS 1, by (try dsimp only) <;> decide +kernel⟩
  · exact ⟨ctxS, by (try dsimp only) <;> decide +kernel⟩
  · exact ⟨pstS 1, 0, by (try dsimp only) <;> decide +kernel⟩
  · exact ⟨pstS 3, 0, by (try dsimp only) <;> decide +kernel⟩
  · exact ⟨pstS 0, 0, by (try dsimp only) <;> decide +kernel⟩
  · exact ⟨pstS 3, 0, by (try dsimp only) <;> decide +kernel⟩
  · exact ⟨pstS 2, 0, by (try dsimp only) <;> decide +kernel⟩
  · exact ⟨pstS 2, 0, by (try dsimp only) <;> decide +kernel⟩
  · exact ⟨upS, .ep, 1, tp 0x30 12 true (zeros 32), by (try dsimp only) <;> decide +kernel⟩
  · exact ⟨upS, .ep, 1, tp 0x30 12 false (zeros 32), by (try dsimp only) <;> decide +kernel⟩
  · exact ⟨srcS (some { sy33 with at_ := 5 }), .sw, 3, tp 0x31 12 true (beBytes 10 65536000000000 ++ beBytes 10 65536000000000), by (try dsimp only) <;> decide +kernel⟩
  · exact ⟨srcS (some sy33), .sw, 3, tp 0x31 12 true (beBytes 10 65536000000000 ++ beBytes 10 65536000000000), sy33, by (try dsimp only) <;> decide +kernel⟩
  · exact ⟨srcS (some sy33), .sw, 3, tp 0x31 12 true (zeros 32), sy33, by (try dsimp only) <;> decide +kernel⟩
  · exact ⟨srcS none, .sw, 3, by (try dsimp only) <;> decide +kernel⟩
  · exact ⟨srcS none, .sw, by (try dsimp only) <;> decide +kernel⟩
  · exact ⟨rtS, by (try dsimp only) <;> decide +kernel⟩
  · exact ⟨on rtS (fun b => b.setFld .sw offTimeCtl 63 62 1), by (try dsimp only) <;> decide +kernel⟩
  · exact ⟨srcS none, .sw, 2^62 + 5, by (try dsimp only) <;> decide +kernel⟩
  · exact ⟨rtS, .sw, by (try dsimp only) <;> decide +kernel⟩

/-- States and operands that meet the hypotheses of MailboxCompletes, clause by clause. -/
theorem witness_MailboxCompletes :
    (∃ (s : State) (d : Dev), s.b.clocked d ∧ s.b.mboxFull d = false) ∧
    (∃ (s : State) (d : Dev), s.b.clocked d ∧ s.b.mboxFull d) ∧
    (∃ (s : State) (d : Dev), ∃ k, s.b.clocked d ∧ hasMboxData k) ∧
    (∃ (s : State) (d : Dev), let m := (s.b.core d).mbox; s.b.clocked d ∧ s.b.mboxFull d ∧ ((s.b.core d).boot.fw ∨ s.b.recovery d) ∧ m.acks.length < 8) ∧
    (∃ (s : State) (d : Dev), let m := (s.b.core d).mbox; s.b.clocked d ∧ s.b.mboxFull d ∧ m.sentAt + 1000000 * s.b.fld d offMboxCtl 31 16 ≤ s.b.now d) ∧
    (∃ (s : State) (d : Dev), let m := (s.b.core d).mbox; ∃ a, ∃ rest, s.b.clocked d ∧ m.acks = a :: rest ∧ s.b.flag d offMboxAck 63 = false) ∧
    (∃ (s : State) (d : Dev), s.b.clocked d) ∧
    (∃ (s : State) (d : Dev), s.b.clocked d) ∧
    (∃ (s : State) (d : Dev) (code : Nat) (m : List Byte), s.b.clocked d ∧ (s.b.core d).mbox.taken.find? (fun x => msgCode x == code) = some m ∧ s.b.stateRefuses d code = none ∧ code = 1) ∧
    (∃ (s : State) (d : Dev) (code : Nat) (m : List Byte), s.b.clocked d ∧ (s.b.core d).mbox.taken.find? (fun x => msgCode x == code) = some m ∧ s.b.stateRefuses d code = none ∧ code = 2 ∧ msgReserved m 0 ∧ s.b.recovery d = false) ∧
    (∃ (s : State) (d : Dev) (code : Nat) (m : List Byte), s.b.clocked d ∧ (s.b.core d).mbox.taken.find? (fun x => msgCode x == code) = some m ∧ s.b.stateRefuses d code = none ∧ code = 0x20 ∧ msgReserved m 12 ∧ (s.b.core d).mbox.fwJob = none ∧ (d = .sw → s.b.inSupplyHold = false) ∧ msgArg m 0 8 % 4096 = 0 ∧ msgArg m 8 4 ≤ 0x2000000 ∧ s.b.canDma d) ∧
    (∃ (s : State) (d : Dev) (code : Nat) (m : List Byte), s.b.clocked d ∧ (s.b.core d).mbox.taken.find? (fun x => msgCode x == code) = some m ∧ s.b.stateRefuses d code = none ∧ s.b.lockedPart d ∧ code = 0x40) ∧
    (∃ (s : State) (d : Dev) (code : Nat) (m : List Byte), s.b.clocked d ∧ (s.b.core d).mbox.taken.find? (fun x => msgCode x == code) = some m ∧ s.b.stateRefuses d code = none ∧ s.b.lockedPart d ∧ code = 0x41) ∧
    (∃ (s : State) (d : Dev) (code : Nat) (m : List Byte), s.b.clocked d ∧ (s.b.core d).mbox.taken.find? (fun x => msgCode x == code) = some m ∧ s.b.stateRefuses d code = none ∧ s.b.lockedPart d ∧ code = 0x42) ∧
    (∃ (s : State) (d : Dev) (code : Nat) (m : List Byte), s.b.clocked d ∧ (s.b.core d).mbox.taken.find? (fun x => msgCode x == code) = some m ∧ s.b.stateRefuses d code = none ∧ s.b.lockedPart d = false ∧ code = 0x40 ∧ msgReserved m 9 ∧ 1 ≤ msgArg m 8 1 ∧ msgArg m 8 1 ≤ 48) ∧
    (∃ (s : State) (d : Dev) (code : Nat) (m : List Byte), s.b.clocked d ∧ (s.b.core d).mbox.taken.find? (fun x => msgCode x == code) = some m ∧ s.b.stateRefuses d code = none ∧ s.b.lockedPart d = false ∧ code = 0x41 ∧ leAt m 4 4 = 0 ∧ (msgArgs m 9 7).all (fun x => x == 0#8) ∧ 1 ≤ msgArg m 8 1 ∧ msgArg m 8 1 ≤ 40 ∧ (msgArgs m (16 + msgArg m 8 1) (40 - msgArg m 8 1)).all (fun x => x == 0#8)) ∧
    (∃ (s : State) (d : Dev) (code : Nat) (m : List Byte), s.b.clocked d ∧ (s.b.core d).mbox.taken.find? (fun x => msgCode x == code) = some m ∧ s.b.stateRefuses d code = none ∧ s.b.lockedPart d = false ∧ code = 0x42 ∧ msgReserved m 1 ∧ msgArg m 0 1 ≤ 1) ∧
    (∃ (s : State) (d : Dev) (m : List Byte), s.b.clocked d ∧ (s.b.core d).mbox.taken.find? (fun x => !msgKnown d (msgCode x)) = some m ∧ s.b.stateRefuses d (msgCode m) = none) ∧
    (∃ (s : State) (d : Dev) (m : List Byte) (r : FwResult), s.b.inRun d ∧ (s.b.core d).mbox.fwJob = some m) := by
  refine ⟨?_, ?_, ?_, ?_, ?_, ?_, ?_, ?_, ?_, ?_, ?_, ?_, ?_, ?_, ?_, ?_, ?_, ?_, ?_⟩
  · exact ⟨rtS, .sw, by (try dsimp only) <;> decide +kernel⟩
  · exact ⟨onM id, .sw, by (try dsimp only) <;> decide +kernel⟩
  · exact ⟨onM id, .sw, 7, by (try dsimp only) <;> decide +kernel⟩
  · exact ⟨onM (fun x => { x with latched := pingM }), .sw, by (try dsimp only) <;> decide +kernel⟩
  · exact ⟨on (onM id) (fun b => b.setFld .sw offMboxCtl 31 16 10), .sw, by (try dsimp only) <;> decide +kernel⟩
  · exact ⟨onM (fun x => { x with acks := [ackX] }), .sw, ackX, ([] : List Ack), by (try dsimp only) <;> decide +kernel⟩
  · exact ⟨on rtS (fun b => b.putReg .sw offMboxAck (2^63 + 77)), .sw, by (try dsimp only) <;> decide +kernel⟩
  · exact ⟨rtS, .sw, by (try dsimp only) <;> decide +kernel⟩
  · exact ⟨tk (msg 1 [7#8]), .sw, 1, pingM, by (try dsimp only) <;> decide +kernel⟩
  · exact ⟨tk (msg 2 []), .sw, 2, msg 2 [], by (try dsimp only) <;> decide +kernel⟩
  · exact ⟨tk (msg 0x20 (leBytes 8 4096 ++ leBytes 4 5000)), .sw, 0x20, msg 0x20 (leBytes 8 4096 ++ leBytes 4 5000), by (try dsimp only) <;> decide +kernel⟩
  · exact ⟨lk (tk (msg 0x40 [])), .sw, 0x40, msg 0x40 [], by (try dsimp only) <;> decide +kernel⟩
  · exact ⟨lk (tk (msg 0x41 [])), .sw, 0x41, msg 0x41 [], by (try dsimp only) <;> decide +kernel⟩
  · exact ⟨lk (tk (msg 0x42 [])), .sw, 0x42, msg 0x42 [], by (try dsimp only) <;> decide +kernel⟩
  · exact ⟨tk (msg 0x40 (zeros 8 ++ [48#8])), .sw, 0x40, msg 0x40 (zeros 8 ++ [48#8]), by (try dsimp only) <;> decide +kernel⟩
  · exact ⟨tk (msg 0x41 (zeros 8 ++ [40#8])), .sw, 0x41, msg 0x41 (zeros 8 ++ [40#8]), by (try dsimp only) <;> decide +kernel⟩
  · exact ⟨tk (msg 0x42 [1#8]), .sw, 0x42, msg 0x42 [1#8], by (try dsimp only) <;> decide +kernel⟩
  · exact ⟨tk (msg 0x55 [1#8]), .sw, msg 0x55 [1#8], by (try dsimp only) <;> decide +kernel⟩
  · exact ⟨on rtS (mb (fun x => { x with fwJob := some pingM })), .sw, pingM, FwResult.flashFailed, by (try dsimp only) <;> decide +kernel⟩

/-- States and operands that meet the hypotheses of LinkCommandsComplete, clause by clause. -/
theorem witness_LinkCommandsComplete :
    (∃ (s : State) (d : Dev) (port : Nat) (f : Flit), hasPort d port ∧ s.b.portUp d port ∧ Flit.fcrcOk f ∧ Flit.ftype f = 0 ∧ Flit.lseq f = ((s.b.port d port).rxLast + 1) % 4096) ∧
    (∃ (s : State) (d : Dev) (port : Nat) (f : Flit), hasPort d port ∧ s.b.portUp d port ∧ Flit.fcrcOk f ∧ Flit.ftype f = 1) ∧
    (∃ (s : State) (d : Dev) (port : Nat), hasPort d port ∧ s.b.portUp d port ∧ (s.b.port d port).replay ≠ [] ∧ (s.b.port d port).timerAt + 2000 ≤ s.b.now d) ∧
    (∃ (s : State) (d : Dev) (port : Nat), hasPort d port ∧ s.b.portUp d port) := by
  refine ⟨?_, ?_, ?_, ?_⟩
  · exact ⟨upS, .sw, 3, dataFlit, by (try dsimp only) <;> decide +kernel⟩
  · exact ⟨upS, .sw, 3, ctrlFlit, by (try dsimp only) <;> decide +kernel⟩
  · exact ⟨replayS, .sw, 3, by (try dsimp only) <;> decide +kernel⟩
  · exact ⟨upS, .sw, 3, by (try dsimp only) <;> decide +kernel⟩

/-- States and operands that meet the hypotheses of PortEventsComplete, clause by clause. -/
theorem witness_PortEventsComplete :
    (∃ (s : State) (d : Dev) (port : Nat) (h : HeldFlit) (r : List HeldFlit), hasPort d port ∧ s.b.inRun d ∧ s.b.portUp d port ∧ (s.b.port d port).replay = h :: r ∧ h.at_ + 10000 ≤ s.b.now d) ∧
    (∃ (s : State) (d : Dev) (port wl : Nat), hasPort d port ∧ hasWl wl ∧ s.b.inRun d) ∧
    (∃ (s : State) (d : Dev) (port wl c r : Nat), hasPort d port ∧ hasWl wl ∧ s.b.inRun d) ∧
    (∃ (s : State) (d : Dev) (k : BucketId), hasBucket d k ∧ s.b.inRun d ∧ s.b.drainEnd d k ≤ s.b.now d) ∧
    (∃ (s : State) (d : Dev) (port wl : Nat), hasPort d port ∧ hasWl wl ∧ s.b.inRun d ∧ s.b.wlRole d port wl = 1) ∧
    (∃ (s : State) (d : Dev) (port : Nat), hasPort d port ∧ s.b.portUp d port) ∧
    (∃ (s : State) (d : Dev) (port wl mk : Nat), MarkerNew s.b d port wl 0x04 mk ∧ s.b.portUp d port) ∧
    (∃ (s : State) (d : Dev) (port wl mk : Nat) (x : SubstOut), MarkerNew s.b d port wl 0x05 mk ∧ (s.b.port d port).subst = some x ∧ x.wl = bits mk 47 44 ∧ x.amSeq % 4096 = bits mk 43 32) ∧
    (∃ (s : State) (d : Dev) (port : Nat), hasPort d port ∧ s.b.portUp d port) ∧
    (∃ (s : State) (d : Dev) (port : Nat) (x : SubstOut), hasPort d port ∧ s.b.inRun d ∧ (s.b.port d port).subst = some x ∧ x.acked = false ∧ x.at_ + 1000000 ≤ s.b.now d) ∧
    (∃ (s : State) (d : Dev) (port wl mk : Nat), MarkerNew s.b d port wl 0x01 mk ∧ s.b.training d port ∧ (s.b.port d port).gotMap = false) ∧
    (∃ (s : State) (d : Dev) (port wl mk : Nat), MarkerNew s.b d port wl 0x02 mk ∧ s.b.training d port ∧ (s.b.port d port).gotMap = false) ∧
    (∃ (s : State) (d : Dev) (port wl mk q : Nat), MarkerNew s.b d port wl 0x03 mk ∧ s.b.training d port ∧ (s.b.port d port).gotNode = false) ∧
    (∃ (s : State) (d : Dev) (port : Nat), hasPort d port ∧ s.b.inRun d ∧ s.b.training d port ∧ (s.b.port d port).txStripes ≠ [] ∧ s.b.lit d port) ∧
    (∃ (s : State) (d : Dev) (port : Nat), hasPort d port ∧ s.b.inRun d ∧ s.b.training d port ∧ (s.b.port d port).attemptAt + 20000000 ≤ s.b.now d) ∧
    (∃ (s : State) (d : Dev) (port : Nat), hasPort d port ∧ s.b.inRun d ∧ (s.b.port d port).waiting ∧ (s.b.port d port).attemptAt + 100000000 ≤ s.b.now d) ∧
    (∃ (s : State) (d : Dev) (port wl : Nat), hasPort d port ∧ hasWl wl ∧ s.b.inRun d) ∧
    (∃ (s : State) (d : Dev) (k pwr : Nat), hasLsup d k ∧ s.b.inRun d) ∧
    (∃ (s : State) (d : Dev) (k p q : Nat), hasLsup d k ∧ s.b.inRun d) ∧
    (∃ (s : State) (d : Dev) (k : Nat) (red : Bool) (pwr : Nat), hasLsup d k ∧ s.b.inRun d) := by
  refine ⟨?_, ?_, ?_, ?_, ?_, ?_, ?_, ?_, ?_, ?_, ?_, ?_, ?_, ?_, ?_, ?_, ?_, ?_, ?_, ?_⟩
  · exact ⟨replayS, .sw, 3, heldF, [], by (try dsimp only) <;> decide +kernel⟩
  · exact ⟨wlS, .sw, 3, 0, by (try dsimp only) <;> decide +kernel⟩
  · exact ⟨wlS, .sw, 3, 0, 3, 5, by (try dsimp only) <;> decide +kernel⟩
  · exact ⟨drainS, .sw, .portRcv 3, by (try dsimp only) <;> decide +kernel⟩
  · exact ⟨wlS, .sw, 3, 0, by (try dsimp only) <;> decide +kernel⟩
  · exact ⟨upS, .sw, 3, by (try dsimp only) <;> decide +kernel⟩
  · exact ⟨upS, .sw, 3, 0, Blk.markerWord 0 15 4 0x8004 3, by (try dsimp only) <;> decide +kernel⟩
  · exact ⟨substS, .sw, 3, 0, Blk.markerWord 0 15 5 0x8004 3, substX, by (try dsimp only) <;> decide +kernel⟩
  · exact ⟨substS, .sw, 3, by (try dsimp only) <;> decide +kernel⟩
  · exact ⟨substS, .sw, 3, substX, by (try dsimp only) <;> decide +kernel⟩
  · exact ⟨trainS0, .sw, 3, 0, Blk.markerWord 0 15 1 5 1, by (try dsimp only) <;> decide +kernel⟩
  · exact ⟨trainS0, .sw, 3, 0, Blk.markerWord 0 15 2 5 1, by (try dsimp only) <;> decide +kernel⟩
  · exact ⟨trainS0, .sw, 3, 0, Blk.markerWord 0 15 3 255 1, 0, by (try dsimp only) <;> decide +kernel⟩
  · exact ⟨trainS, .sw, 3, by (try dsimp only) <;> decide +kernel⟩
  · exact ⟨trainS, .sw, 3, by (try dsimp only) <;> decide +kernel⟩
  · exact ⟨waitS, .sw, 3, by (try dsimp only) <;> decide +kernel⟩
  · exact ⟨disS, .sw, 3, 0, by (try dsimp only) <;> decide +kernel⟩
  · exact ⟨lsupS, .sw, 2, 10, by (try dsimp only) <;> decide +kernel⟩
  · exact ⟨lsupS, .sw, 2, 10, 12, by (try dsimp only) <;> decide +kernel⟩
  · exact ⟨lsupS, .sw, 2, false, 10, by (try dsimp only) <;> decide +kernel⟩

/-- States and operands that meet the hypotheses of HostPortCommandsComplete, clause by clause. -/
theorem witness_HostPortCommandsComplete :
    (∃ (s : State) (d : Dev), ∃ port, Served s.b d ∧ hasPort d port ∧ s.b.lstate d port = 2) ∧
    (∃ (s : State) (d : Dev), ∃ port, Served s.b d ∧ hasPort d port ∧ s.b.lstate d port ≠ 4 ∧ s.b.lstate d port ≠ 5) ∧
    (∃ (s : State) (d : Dev), ∃ port, Served s.b d ∧ hasPort d port ∧ s.b.lstate d port = 4 ∧ s.b.enabled d port ∧ s.b.lit d port) ∧
    (∃ (s : State) (d : Dev), ∃ port, Served s.b d ∧ hasPort d port ∧ s.b.lstate d port = 0) ∧
    (∃ (s : State) (d : Dev), ∃ k, Served s.b d ∧ hasLsup d k ∧ s.b.flag d (offLsup d k) 61) := by
  refine ⟨?_, ?_, ?_, ?_, ?_⟩
  · exact ⟨upS, .sw, 3, by (try dsimp only) <;> decide +kernel⟩
  · exact ⟨upS, .sw, 3, by (try dsimp only) <;> decide +kernel⟩
  · exact ⟨retS, .sw, 3, by (try dsimp only) <;> decide +kernel⟩
  · exact ⟨disS, .sw, 3, by (try dsimp only) <;> decide +kernel⟩
  · exact ⟨lsupS, .sw, 2, by (try dsimp only) <;> decide +kernel⟩

/-- States and operands that meet the hypotheses of HomeRequestsComplete, clause by clause. -/
theorem witness_HomeRequestsComplete :
    (∃ (s : State) (d : Dev) (port : Nat) (p : Packet) (ecc : Ecc), HomeCarries s d port p (s.b.windowOk d p) (Packet.formOk p) ∧ Packet.opcode p = 0x1) ∧
    (∃ (s : State) (d : Dev) (port : Nat) (p : Packet) (ecc : Ecc), HomeCarries s d port p (s.b.windowOk d p) (Packet.formOk p) ∧ Packet.opcode p = 0x2) ∧
    (∃ (s : State) (d : Dev) (port : Nat) (p : Packet) (ecc : Ecc), HomeCarries s d port p (s.b.windowOk d p) (Packet.formOk p) ∧ Packet.opcode p = 0x3) ∧
    (∃ (s : State) (d : Dev) (port : Nat) (p : Packet) (ecc : Ecc), HomeCarries s d port p (s.b.windowOk d p) (Packet.formOk p) ∧ Packet.opcode p = 0x4) ∧
    (∃ (s : State) (d : Dev) (port : Nat) (p : Packet) (ecc : Ecc), HomeCarries s d port p (s.b.windowOk d p) (Packet.formOk p) ∧ Packet.opcode p = 0x5) ∧
    (∃ (s : State) (d : Dev) (port : Nat) (p : Packet) (ecc : Ecc), HomeCarries s d port p (s.b.windowOk d p) (Packet.formOk p) ∧ Packet.opcode p = 0x6) ∧
    (∃ (s : State) (d : Dev) (port : Nat) (p : Packet) (ecc : Ecc), HomeCarries s d port p (s.b.windowOk d p) (Packet.formOk p) ∧ Packet.opcode p = 0x7) ∧
    (∃ (s : State) (d : Dev) (port : Nat) (p : Packet) (ecc : Ecc), HomeCarries s d port p (s.b.windowOk d p) (Packet.formOk p) ∧ Packet.opcode p = 0x8) ∧
    (∃ (s : State) (d : Dev) (port : Nat) (p : Packet) (ecc : Ecc), HomeCarries s d port p (s.b.windowOk d p) (Packet.formOk p) ∧ Packet.opcode p = 0x9) ∧
    (∃ (s : State) (d : Dev) (port : Nat) (p : Packet) (ecc : Ecc), HomeCarries s d port p (s.b.windowOk d p) (Packet.formOk p) ∧ Packet.opcode p = 0xA) ∧
    (∃ (s : State) (d : Dev) (port : Nat) (p : Packet) (ecc : Ecc), HomeCarries s d port p (s.b.windowOk d p) (Packet.formOk p) ∧ Packet.opcode p = 0xB) := by
  refine ⟨?_, ?_, ?_, ?_, ?_, ?_, ?_, ?_, ?_, ?_, ?_⟩
  · exact ⟨mem1, .ep, 1, rdP, ecc0, by (try dsimp only) <;> decide +kernel⟩
  · exact ⟨mem1, .ep, 1, rq 2 0 [1#8, 2#8, 3#8] 0x40 0, ecc0, by (try dsimp only) <;> decide +kernel⟩
  · exact ⟨mem1, .ep, 1, topP, ecc0, by (try dsimp only) <;> decide +kernel⟩
  · exact ⟨mem1, .ep, 1, atP 4 2, ecc0, by (try dsimp only) <;> decide +kernel⟩
  · exact ⟨mem1, .ep, 1, atP 5 2, ecc0, by (try dsimp only) <;> decide +kernel⟩
  · exact ⟨mem1, .ep, 1, casP, ecc0, by (try dsimp only) <;> decide +kernel⟩
  · exact ⟨mem1, .ep, 1, atP 7 2, ecc0, by (try dsimp only) <;> decide +kernel⟩
  · exact ⟨mem1, .ep, 1, atP 8 2, ecc0, by (try dsimp only) <;> decide +kernel⟩
  · exact ⟨mem1, .ep, 1, atP 9 2, ecc0, by (try dsimp only) <;> decide +kernel⟩
  · exact ⟨mem1, .ep, 1, atP 10 0, ecc0, by (try dsimp only) <;> decide +kernel⟩
  · exact ⟨mem1, .ep, 1, atP 11 2, ecc0, by (try dsimp only) <;> decide +kernel⟩

/-- States and operands that meet the hypotheses of HomeTimersComplete, clause by clause. -/
theorem witness_HomeTimersComplete :
    (∃ (s : State) (port : Nat) (p : Packet), HomeCarries s .ep port p (s.b.tallyValid (Packet.incTally p) && s.b.ctxPart (s.b.tallyOwner (Packet.incTally p)) == Packet.part p) (Packet.incOk p) ∧ Packet.opcode p = 0xC) ∧
    (∃ (s : State) (d : Dev) (h : HeldTop), (s.b.home d).held = [h] ∧ h.limit ≤ s.b.time64 d) ∧
    (∃ (s : State) (d : Dev) (k : StreamKey) (seq : Nat) (e : DsEnt), s.b.findDs d k seq = some e ∧ e.at_ + 800000 ≤ s.b.now d ∧ e.status ≠ none ∧ (s.b.home d).waiting = []) := by
  refine ⟨?_, ?_, ?_⟩
  · exact ⟨tallyS, 1, incP, by (try dsimp only) <;> decide +kernel⟩
  · exact ⟨heldS, .ep, heldT, by (try dsimp only) <;> decide +kernel⟩
  · exact ⟨repS2, .ep, Packet.stream (atP 4 2), 4, repE, by (try dsimp only) <;> decide +kernel⟩

/-- States and operands that meet the hypotheses of CoherenceCompletes, clause by clause. -/
theorem witness_CoherenceCompletes :
    (∃ (s : State) (x : Snoop), s.b.ep.snoops = [x] ∧ x.out ∧ x.sentAt + 10000 ≤ s.b.now .ep) ∧
    (∃ (s : State) (x : PendAns), s.b.ep.home.pend = [x] ∧ x.snoops ≠ [] ∧ x.expire ≤ s.b.time64 .ep ∧ x.isLocal = false ∧ x.own = none ∧ s.b.ep.home.waiting = []) ∧
    (∃ (s : State) (port : Nat) (p : Packet), hasPort .ep port ∧ s.b.serving .ep ∧ Packet.opcode p = 0x19 ∧ EpSound s.b p) ∧
    (∃ (s : State) (port : Nat) (p : Packet) (x : Snoop), hasPort .ep port ∧ s.b.serving .ep ∧ Packet.opcode p = 0x1A ∧ EpSound s.b p ∧ s.b.ep.snoops = [x] ∧ x.id = Packet.snoopId p ∧ x.node = Packet.src p ∧ 64 * x.line = Packet.cohOff p ∧ x.lines = Packet.cohLines p ∧ s.b.ep.home.pend = [] ∧ s.b.ep.home.waiting = []) ∧
    (∃ (s : State) (port m : Nat) (p : Packet), hasPort .ep port ∧ s.b.serving .ep ∧ Packet.opcode p = 0x18 ∧ EpSound s.b p ∧ s.b.memberOf (Packet.src p) = some m ∧ Packet.allPart p) ∧
    (∃ (s : State) (off : Nat) (bytes : List Byte), s.b.serving .ep ∧ s.b.ep.snoops.length < 4096) ∧
    (∃ (s : State) (x : PendAns) (off len : Nat) (ok : Bool), s.b.ep.home.pend = [x] ∧ x.ucie ∧ x.isLocal = false ∧ x.own = none ∧ x.hop = .read off len ∧ s.b.ep.badMem = [] ∧ s.b.ep.home.held = [] ∧ s.b.ep.home.waiting = []) ∧
    (∃ (s : State) (n v : Nat), hasIsland n ∧ Served s.b .ep ∧ s.b.ep.home.waiting = [] ∧ s.b.islandValid n = false ∧ bitOf v 63 ∧ bits v 13 0 ≠ 16383 ∧ bits v 13 0 ≠ s.b.ep.node ∧ (∀ m, m < 3 → m ≠ n → s.b.islandValid m → s.b.islandNode m ≠ bits v 13 0)) ∧
    (∃ (s : State) (n v : Nat), hasWindow n ∧ Served s.b .ep ∧ s.b.hwinValid n = false ∧ bitOf v 63 ∧ bits v 55 44 ≠ 0 ∧ bits v 55 44 ≠ 0xFFF ∧ s.b.fld .ep (offHwinBase n) 43 21 ≤ bits v 43 21 ∧ (∀ m, m < 64 → m ≠ n → s.b.hwinValid m → bits v 43 21 < s.b.fld .ep (offHwinBase m) 43 21 ∨ s.b.fld .ep (offHwinCtl m) 43 21 < s.b.fld .ep (offHwinBase n) 43 21)) ∧
    (∃ (s : State) (n v : Nat), hasNode n ∧ Served s.b .ep ∧ n ≠ 16383) := by
  refine ⟨?_, ?_, ?_, ?_, ?_, ?_, ?_, ?_, ?_, ?_⟩
  · exact ⟨snS, snoopX, by (try dsimp only) <;> decide +kernel⟩
  · exact ⟨pnS, pendX, by (try dsimp only) <;> decide +kernel⟩
  · exact ⟨snS, 1, cohP 0x19 2 2 false, by (try dsimp only) <;> decide +kernel⟩
  · exact ⟨snS, 1, cohP 0x1A 3 2 false, snoopX, by (try dsimp only) <;> decide +kernel⟩
  · exact ⟨snS, 1, 1, cohP 0x18 1 1 true, by (try dsimp only) <;> decide +kernel⟩
  · exact ⟨ctxS, 0x40, [7#8, 0#8, 9#8], by (try dsimp only) <;> decide +kernel⟩
  · exact ⟨paS, { pendX with snoops := [] }, 64, 4, true, by (try dsimp only) <;> decide +kernel⟩
  · exact ⟨snS, 0, 2^63 + 13, by (try dsimp only) <;> decide +kernel⟩
  · exact ⟨onC (fun b => b.putReg .ep (offHwinBase 3) (2^21)), 3, 2^63 + 5 * 2^44 + 2^21, by (try dsimp only) <;> decide +kernel⟩
  · exact ⟨snS, 16382, 2^31 + 2^30 + 9, by (try dsimp only) <;> decide +kernel⟩

/-- States and operands that meet the hypotheses of DirectAccessesComplete, clause by clause. -/
theorem witness_DirectAccessesComplete :
    (∃ (s : State) (n eng va size : Nat), hasCtx n ∧ s.b.serving .ep ∧ s.b.ctxState n = 2 ∧ directSize size ∧ va % size = 0 ∧ s.b.ep.fc = []) ∧
    (∃ (s : State) (n eng va : Nat) (bytes : List Byte), hasCtx n ∧ s.b.serving .ep ∧ s.b.ctxState n = 2 ∧ directSize bytes.length ∧ va % bytes.length = 0) ∧
    (∃ (s : State) (n eng va op q : Nat) (opnd : List Byte), hasCtx n ∧ s.b.serving .ep ∧ s.b.ctxState n = 2 ∧ atomicForm op q opnd.length va) ∧
    (∃ (s : State) (n eng : Nat) (scope : Scope), hasCtx n ∧ s.b.serving .ep ∧ s.b.ctxState n = 2 ∧ scope ≠ .engine) ∧
    (∃ (s : State) (n eng addr : Nat) (scope : Scope) (flag : List Byte), hasCtx n ∧ s.b.serving .ep ∧ s.b.ctxState n = 2 ∧ scope ≠ .engine ∧ (flag.length = 4 ∨ flag.length = 8) ∧ addr % flag.length = 0 ∧ addr < 2 ^ 58) ∧
    (∃ (s : State) (n eng addr op q : Nat) (scope : Scope) (opnd : List Byte), hasCtx n ∧ s.b.serving .ep ∧ s.b.ctxState n = 2 ∧ scope ≠ .engine ∧ atomicForm op q opnd.length addr ∧ addr < 2 ^ 58) ∧
    (∃ (s : State) (x : Rel), s.b.ep.rels = [x] ∧ x.covers = [] ∧ x.flag = none ∧ x.atomic = none ∧ s.b.ctxState x.ctx = 2 ∧ x.fail = none) ∧
    (∃ (s : State) (x : Rel) (addr : Nat) (bytes : List Byte), s.b.ep.rels = [x] ∧ x.covers = [] ∧ x.flag = some (addr, bytes) ∧ x.acq = none ∧ s.b.ctxState x.ctx = 2 ∧ x.fail = none) ∧
    (∃ (s : State) (n eng addr size : Nat) (scope : Scope) (range : AcqRange), hasCtx n ∧ s.b.serving .ep ∧ s.b.ctxState n = 2 ∧ scope ≠ .engine ∧ (size = 4 ∨ size = 8) ∧ addr % size = 0 ∧ addr < 2 ^ 58 ∧ rangeOk range) ∧
    (∃ (s : State) (n eng : Nat) (scope : Scope) (range : AcqRange), hasCtx n ∧ s.b.serving .ep ∧ s.b.ctxState n = 2 ∧ scope ≠ .engine ∧ rangeOk range ∧ s.b.relsOf n eng = []) := by
  refine ⟨?_, ?_, ?_, ?_, ?_, ?_, ?_, ?_, ?_, ?_⟩
  · exact ⟨ctxS, 3, 2, 64, 64, by (try dsimp only) <;> decide +kernel⟩
  · exact ⟨ctxS, 3, 2, 32, zeros 32, by (try dsimp only) <;> decide +kernel⟩
  · exact ⟨ctxS, 3, 2, 64, 6, 5, zeros 32, by (try dsimp only) <;> decide +kernel⟩
  · exact ⟨rqS l0, 3, 2, .chip, by (try dsimp only) <;> decide +kernel⟩
  · exact ⟨ctxS, 3, 2, 2^58 - 8, .island, zeros 8, by (try dsimp only) <;> decide +kernel⟩
  · exact ⟨ctxS, 3, 2, 2^58 - 4, 11, 0, .fabric, zeros 4, by (try dsimp only) <;> decide +kernel⟩
  · exact ⟨relS rel0, rel0, by (try dsimp only) <;> decide +kernel⟩
  · exact ⟨relS { rel0 with flag := some (2^44 * 12 + 64, zeros 4) }, { rel0 with flag := some (2^44 * 12 + 64, zeros 4) }, 2^44 * 12 + 64, zeros 4, by (try dsimp only) <;> decide +kernel⟩
  · exact ⟨ctxS, 3, 2, 2^58 - 8, 8, .fabric, .all, by (try dsimp only) <;> decide +kernel⟩
  · exact ⟨fcS, 3, 2, .fabric, .block (2^44*12) 7, by (try dsimp only) <;> decide +kernel⟩

/-- States and operands that meet the hypotheses of RequestsInFlightComplete, clause by clause. -/
theorem witness_RequestsInFlightComplete :
    (∃ (s : State) (r : Req) (t : Nat) (ecc : Ecc) (bad : Bool), let r' := { r with epoch := s.b.ctxEpoch r.ctx }; let o := (s.b.updReq r.id (fun _ => r')).sendOne r' t; hasTag t ∧ s.b.serving .ep ∧ s.b.ep.reqs = [r] ∧ r.sent = false ∧ s.b.mayIssue r ∧ r.feeds = [] ∧ s.b.ep.rels = [] ∧ r.va = none ∧ r.op = 2 ∧ r.payload.length ≤ 32 ∧ r.node ≠ s.b.ep.node ∧ (match r.why with | .relStore _ => true | _ => false) = true ∧ s.b.preStatus r' false = 0 ∧ o.1) ∧
    (∃ (s : State) (r : Req), s.b.ep.reqs = [r] ∧ r.mayRetry s.b.ep.node ∧ r.first + 2 * lifetime r.life ≤ s.b.now .ep) ∧
    (∃ (s : State) (r : Req) (p : Nat), s.b.serving .ep ∧ s.b.ep.reqs = [r] ∧ r.retry = 1 ∧ r.counted = false ∧ s.b.now .ep < r.first + 3 * lifetime r.life ∧ (s.b.pidKey .ep (s.b.ctxPart r.ctx)).cur.isSome ∧ r.op = 1 ∧ r.long = false ∧ without (s.b.usablePlanes r.ctx r.node) r.plane ≠ [] ∧ s.b.choosePlane r.ctx (without (s.b.usablePlanes r.ctx r.node) r.plane) r.tc 4 = some p) ∧
    (∃ (s : State) (r : Req), s.b.ep.reqs = [r] ∧ r.retry = 1 ∧ r.first + 3 * lifetime r.life ≤ s.b.now .ep) ∧
    (∃ (s : State) (r : Req) (e : Nat), s.b.ep.reqs = [r] ∧ r.sent ∧ r.first + 4 * lifetime r.life ≤ s.b.now .ep ∧ r.why = .atomic e) ∧
    (∃ (s : State) (t a : Nat), hasTag t ∧ (s.b.tag t).freeAt = some a ∧ (s.b.tag t).orphan = false ∧ a ≤ s.b.now .ep) ∧
    (∃ (s : State) (port eng skip size : Nat) (p : Packet) (r : Req), hasPort .ep port ∧ s.b.serving .ep ∧ Packet.opcode p = 0x10 ∧ EpSound s.b p ∧ Packet.tailMarked p = false ∧ Packet.checkOk p ∧ Packet.status p = 0 ∧ s.b.ep.reqs = [r] ∧ r.sent ∧ r.op = 1 ∧ r.tag = some (Packet.tag p) ∧ r.tagGen = Packet.tagGen p ∧ r.why = .load eng skip size false) ∧
    (∃ (s : State) (port eng : Nat) (p : Packet) (r : Req), hasPort .ep port ∧ s.b.serving .ep ∧ Packet.opcode p = 0x12 ∧ EpSound s.b p ∧ Packet.tailMarked p = false ∧ Packet.checkOk p ∧ Packet.status p = 0 ∧ s.b.ep.reqs = [r] ∧ r.sent ∧ r.op = 4 ∧ r.tag = some (Packet.tag p) ∧ r.tagGen = Packet.tagGen p ∧ r.why = .atomic eng) ∧
    (∃ (s : State) (port eng : Nat) (p : Packet) (r : Req), hasPort .ep port ∧ s.b.serving .ep ∧ Packet.opcode p = 0x11 ∧ EpSound s.b p ∧ Packet.cplCount p = 1 ∧ s.b.ep.reqs = [r] ∧ r.sent ∧ r.op = 2 ∧ r.seq = Packet.seq p ∧ Packet.seq p < 65536 ∧ s.b.reqStream r = s.b.cplStream p ∧ r.why = .relStore eng) ∧
    (∃ (s : State) (k : StreamKey) (x : Stream), s.b.ep.streams = [x] ∧ x.key = k ∧ s.b.flag .ep offCcCfg 0 ∧ max x.lastInc (x.lastDec - 1) + 100 * s.b.fld .ep offCcCfg 23 16 ≤ s.b.now .ep) := by
  refine ⟨?_, ?_, ?_, ?_, ?_, ?_, ?_, ?_, ?_, ?_⟩
  · exact ⟨rqS w0, w0, 1, ecc0, false, by (try dsimp only) <;> decide +kernel⟩
  · exact ⟨rqS (sentR l0), sentR l0, by (try dsimp only) <;> decide +kernel⟩
  · exact ⟨rqS { sentR l0 with retry := 1, first := 999990000, plane := 0 }, { sentR l0 with retry := 1, first := 999990000, plane := 0 }, 1, by (try dsimp only) <;> decide +kernel⟩
  · exact ⟨rqS { sentR l0 with retry := 1 }, { sentR l0 with retry := 1 }, by (try dsimp only) <;> decide +kernel⟩
  · exact ⟨rqS { sentR l0 with why := .atomic 2, op := 4 }, { sentR l0 with why := .atomic 2, op := 4 }, 2, by (try dsimp only) <;> decide +kernel⟩
  · exact ⟨onC (fun b => b.setTag 1 { gen := 7, busy := false, ctx := 3, freeAt := some 5, orphan := false }), 1, 5, by (try dsimp only) <;> decide +kernel⟩
  · exact ⟨rqS (sentR l0), 1, 2, 4, 8, rsp 0x10 2 0 1 (zeros 12), sentR l0, by (try dsimp only) <;> decide +kernel⟩
  · exact ⟨rqS { sentR l0 with why := .atomic 2, op := 4 }, 1, 2, rsp 0x12 2 0 1 (zeros 4), { sentR l0 with why := .atomic 2, op := 4 }, by (try dsimp only) <;> decide +kernel⟩
  · exact ⟨rqS (sentR w0), 1, 2, rsp 0x11 2 0 1 [0#8], sentR w0, by (try dsimp only) <;> decide +kernel⟩
  · exact ⟨onC (fun b => (b.putReg .ep offCcCfg (2^44*900 + 2^16*5 + 2^4*3 + 1)).modEp (fun e => { e with streams := [strX] })), strX.key, strX, by (try dsimp only) <;> decide +kernel⟩

/-- States and operands that meet the hypotheses of ContextCommandsComplete, clause by clause. -/
theorem witness_ContextCommandsComplete :
    (∃ (s : State) (n : Nat) (l : List Byte), hasCtx n ∧ Served s.b .ep ∧ s.b.ctxState n = 0 ∧ s.b.dmaOk .ep ∧ s.b.descOk l ∧ (s.b.ctx n).lastEpoch = none ∧ (s.b.ctx n).epochSent = []) ∧
    (∃ (s : State) (n e : Nat) (d : CtxDesc), hasCtx n ∧ (s.b.ctx n).newDesc = some d ∧ s.b.nextEpoch n = some e ∧ e < 16) ∧
    (∃ (s : State) (n : Nat), hasCtx n ∧ Served s.b .ep ∧ s.b.ctxState n = 1 ∧ (s.b.ctx n).saved = false ∧ (s.b.ctx n).faulted = none ∧ s.b.freeSlots ≠ []) ∧
    (∃ (s : State) (n : Nat), hasCtx n ∧ Served s.b .ep ∧ (s.b.ctxState n = 2 ∨ s.b.ctxState n = 4)) ∧
    (∃ (s : State) (n : Nat), hasCtx n ∧ Served s.b .ep ∧ (s.b.ctxState n = 2 ∨ s.b.ctxState n = 4 ∨ s.b.ctxState n = 3)) ∧
    (∃ (s : State) (n : Nat), hasCtx n ∧ s.b.ctxState n = 3 ∧ s.b.atStop n ∧ s.b.dmaOk .ep) ∧
    (∃ (s : State) (n : Nat), hasCtx n ∧ Served s.b .ep ∧ s.b.ctxState n = 4) ∧
    (∃ (s : State) (n : Nat) (d : ProgDesc) (rest : List ProgDesc) (f : FaultRec), hasCtx n ∧ Served s.b .ep ∧ s.b.ctxState n = 4 ∧ (s.b.ctx n).faulted = some f ∧ (s.b.ctx n).prog = d :: rest ∧ d.ring = f.ring ∧ d.begun = false) ∧
    (∃ (s : State) (n : Nat), hasCtx n ∧ Served s.b .ep ∧ s.b.abortable n ∧ s.b.ep.reqs = [] ∧ s.b.ep.rels = [] ∧ s.b.ep.colls = [] ∧ (s.b.ctx n).heldDirect = [] ∧ (s.b.ctx n).prog = []) ∧
    (∃ (s : State) (n : Nat), hasCtx n ∧ s.b.ctxState n = 6 ∧ s.b.dmaOk .ep) ∧
    (∃ (s : State) (n k : Nat) (x : TagEnt), hasCtx n ∧ s.b.ep.tags = [(k, x)] ∧ x.orphan ∧ x.ctx = n ∧ x.freeAt = some 0) ∧
    (∃ (s : State) (n : Nat), hasCtx n ∧ Served s.b .ep ∧ s.b.ctxState n = 7) ∧
    (∃ (s : State) (n e : Nat), hasCtx n ∧ s.b.flag .ep (offCtxState n) 15 ∧ s.b.ep.reqs = [] ∧ (∀ x ∈ s.b.ep.streams, x.key.ctx = n → x.fails = []) ∧ s.b.nextEpoch n = some e ∧ e < 16) := by
  refine ⟨?_, ?_, ?_, ?_, ?_, ?_, ?_, ?_, ?_, ?_, ?_, ?_, ?_⟩
  · exact ⟨onC (fun b => (b.setCtxState 3 0).modCtx 3 (fun _ => Ctx.idle)), 3, descL, by (try dsimp only) <;> decide +kernel⟩
  · exact ⟨on (stS 0) (fun b => (b.modCtx 3 (fun c => { c with newDesc := some ctxDesc })).setFlag .ep (offCtxState 3) 14 true), 3, 0, ctxDesc, by (try dsimp only) <;> decide +kernel⟩
  · exact ⟨stS 1, 3, by (try dsimp only) <;> decide +kernel⟩
  · exact ⟨stS 4, 3, by (try dsimp only) <;> decide +kernel⟩
  · exact ⟨stS 3, 3, by (try dsimp only) <;> decide +kernel⟩
  · exact ⟨stS 3, 3, by (try dsimp only) <;> decide +kernel⟩
  · exact ⟨faultS (pD [2^60]), 3, by (try dsimp only) <;> decide +kernel⟩
  · exact ⟨faultS (pD [2^60]), 3, pD [2^60], [], fRec, by (try dsimp only) <;> decide +kernel⟩
  · exact ⟨stS 5, 3, by (try dsimp only) <;> decide +kernel⟩
  · exact ⟨stS 6, 3, by (try dsimp only) <;> decide +kernel⟩
  · exact ⟨onC (fun b => b.modEp (fun e => { e with tags := [(8, tagX)] })), 3, 8, tagX, by (try dsimp only) <;> decide +kernel⟩
  · exact ⟨stS 7, 3, by (try dsimp only) <;> decide +kernel⟩
  · exact ⟨onC (fun b => b.setFlag .ep (offCtxState 3) 15 true), 3, 0, by (try dsimp only) <;> decide +kernel⟩

/-- States and operands that meet the hypotheses of ProgramsComplete, clause by clause. -/
theorem witness_ProgramsComplete :
    (∃ (s : State) (n : Nat) (ecc : Ecc) (d : CtxDesc), hasCtx n ∧ s.b.serving .ep ∧ (s.b.ctx n).desc = some d ∧ s.b.ctxState n = 2 ∧ d.engineMask ≠ 0 ∧ (s.b.ctx n).prog = [] ∧ s.b.consOf n ≠ s.b.prodOf n ∧ ecc.ue = [] ∧ s.b.ep.badMem = [] ∧ s.b.ringOk d) ∧
    (∃ (s : State) (e n : Nat), hasCopyEngine e ∧ hasCtx n ∧ s.b.serving .ep ∧ s.b.nextCtx e = some n ∧ s.b.flag .ep (offCe e) 63 = false) ∧
    (∃ (s : State) (n : Nat) (d : ProgDesc) (rest : List ProgDesc), HeadReady s n d rest ∧ d.type = 1 ∧ Blk.copyOk d ∧ s.b.tallyOk n d) ∧
    (∃ (s : State) (n : Nat) (d : ProgDesc) (rest : List ProgDesc), HeadReady s n d rest ∧ d.type = 2 ∧ Blk.storeOk d ∧ s.b.tallyOk n d) ∧
    (∃ (s : State) (n : Nat) (d : ProgDesc) (rest : List ProgDesc), HeadReady s n d rest ∧ d.type = 3 ∧ bits (d.q 0) 46 32 = 0 ∧ d.length = 0 ∧ d.q 1 = 0 ∧ d.dst < 2 ^ 57 ∧ d.dst % 4 = 0 ∧ d.q 3 < 2 ^ 32 ∧ Blk.zeroFrom d 4 ∧ s.b.tallyOk n d) ∧
    (∃ (s : State) (n w : Nat) (d : ProgDesc) (rest : List ProgDesc), HeadReady s n d rest ∧ d.type = 5 ∧ d.cplEn = false ∧ bits (d.q 0) 46 32 = 0 ∧ d.q 1 = 0 ∧ d.q 2 = 0 ∧ d.q 3 = w ∧ w < 4096 ∧ Blk.zeroFrom d 4 ∧ s.b.owns n w) ∧
    (∃ (s : State) (n : Nat) (d : ProgDesc) (rest : List ProgDesc), hasCtx n ∧ s.b.serving .ep ∧ s.b.ctxState n = 2 ∧ (s.b.ctx n).prog = d :: rest ∧ d.begun ∧ d.type = 5 ∧ Blk.reached (s.b.tallyCount (bits (d.q 3) 11 0)) d.length) ∧
    (∃ (s : State) (n : Nat) (d : ProgDesc) (rest : List ProgDesc), HeadReady s n d rest ∧ d.type = 6 ∧ d.length ≠ 0 ∧ bits (d.q 0) 46 32 = 0 ∧ d.q 1 = 0 ∧ d.q 2 = 0 ∧ d.q 3 < 2 ^ 26 ∧ Blk.zeroFrom d 4 ∧ s.b.tallyOk n d) ∧
    (∃ (s : State) (n : Nat) (d : ProgDesc) (rest : List ProgDesc), HeadReady s n d rest ∧ (d.type = 0 ∨ 7 ≤ d.type)) := by
  refine ⟨?_, ?_, ?_, ?_, ?_, ?_, ?_, ?_, ?_⟩
  · exact ⟨dS, 3, ecc0, ctxDesc, by (try dsimp only) <;> decide +kernel⟩
  · exact ⟨onC (fun b => (b.modCtx 3 (fun c => { c with engine := none, prog := [pD [2^60]] }))), 15, 3, by (try dsimp only) <;> decide +kernel⟩
  · exact ⟨progS (pD [2^60 + 2^59 + 7 * 2^47 + 300, 4096, 8190]), 3, pD [2^60 + 2^59 + 7 * 2^47 + 300, 4096, 8190], [], by (try dsimp only) <;> decide +kernel⟩
  · exact ⟨progS (pD [2 * 2^60 + 2^59 + 7 * 2^47 + 8, 4096, 8190]), 3, pD [2 * 2^60 + 2^59 + 7 * 2^47 + 8, 4096, 8190], [], by (try dsimp only) <;> decide +kernel⟩
  · exact ⟨progS (pD [3 * 2^60 + 2^59 + 7 * 2^47, 0, 8192, 2^32 - 1]), 3, pD [3 * 2^60 + 2^59 + 7 * 2^47, 0, 8192, 2^32 - 1], [], by (try dsimp only) <;> decide +kernel⟩
  · exact ⟨progS (pD [5 * 2^60 + 9, 0, 0, 7]), 3, 7, pD [5 * 2^60 + 9, 0, 0, 7], [], by (try dsimp only) <;> decide +kernel⟩
  · exact ⟨progS { pD [5 * 2^60, 0, 0, 7] with begun := true }, 3, { pD [5 * 2^60, 0, 0, 7] with begun := true }, [], by (try dsimp only) <;> decide +kernel⟩
  · exact ⟨progS (pD [6 * 2^60 + 3, 0, 0, 12 + 7 * 2^14]), 3, pD [6 * 2^60 + 3, 0, 0, 12 + 7 * 2^14], [], by (try dsimp only) <;> decide +kernel⟩
  · exact ⟨progS (pD [15 * 2^60 + 3, 0, 0, 12 + 7 * 2^14]), 3, pD [15 * 2^60 + 3, 0, 0, 12 + 7 * 2^14], [], by (try dsimp only) <;> decide +kernel⟩

/-- States and operands that meet the hypotheses of TranslationCompletes, clause by clause. -/
theorem witness_TranslationCompletes :
    (∃ (s : State) (a : AtsReq) (va size fabric : Nat) (rd wr : Bool), s.b.ep.ats = [a] ∧ a.phase = 0 ∧ a.stale = false ∧ (a.rd → rd) ∧ (a.wr → wr) ∧ (s.b.ctx a.ctx).prog = [] ∧ s.b.ep.atc.length < 32768) ∧
    (∃ (s : State) (a : AtsReq), s.b.ep.ats = [a] ∧ a.phase = 0 ∧ a.stale = false) ∧
    (∃ (s : State) (a : AtsReq), s.b.ep.ats = [a] ∧ a.phase = 1) ∧
    (∃ (s : State) (a : AtsReq) (d : ProgDesc), s.b.ep.ats = [a] ∧ a.at_ + 50000000 ≤ s.b.now .ep ∧ a.req = 0 ∧ a.wr = false ∧ (s.b.ctx a.ctx).prog = [d] ∧ d.type = 1 ∧ d.begun ∧ d.ext = [] ∧ d.length ≠ 0 ∧ d.src < 2 ^ 57 ∧ a.va = Blk.pageOf d.src) ∧
    (∃ (s : State) (n : Nat) (c : Ctx) (p : Parked), Served s.b .ep ∧ s.b.ep.ctxs = [(n, c)] ∧ c.parked = some p ∧ p.direct = none ∧ p.prev = 2 ∧ s.b.fqSpace ∧ n < 1024) ∧
    (∃ (s : State) (itag pasid va size : Nat), s.b.ep.filter.length < 64) ∧
    (∃ (s : State) (x : InvReq), s.b.ep.invs = [x] ∧ x.counted = []) := by
  refine ⟨?_, ?_, ?_, ?_, ?_, ?_, ?_⟩
  · exact ⟨atsS atsX, atsX, 8192, 4096, 2^44*12, true, false, by (try dsimp only) <;> decide +kernel⟩
  · exact ⟨atsS atsX, atsX, by (try dsimp only) <;> decide +kernel⟩
  · exact ⟨atsS { atsX with phase := 1 }, { atsX with phase := 1 }, by (try dsimp only) <;> decide +kernel⟩
  · exact ⟨atsD, { atsX with rd := true }, cpD, by (try dsimp only) <;> decide +kernel⟩
  · exact ⟨parkS, 3, parkS.b.ctx 3, parkX, by (try dsimp only) <;> decide +kernel⟩
  · exact ⟨atsS atsX, 31, 44, 0, 8192, by (try dsimp only) <;> decide +kernel⟩
  · exact ⟨onC (fun b => b.modEp (fun e => { e with invs := [{ itag := 31, at_ := 5, counted := [] }] })), { itag := 31, at_ := 5, counted := [] }, by (try dsimp only) <;> decide +kernel⟩

/-- States and operands that meet the hypotheses of DatagramsComplete, clause by clause. -/
theorem witness_DatagramsComplete :
    (∃ (s : State) (q v : Nat), hasDgq q ∧ Served s.b .ep ∧ s.b.dgqValid q = false ∧ bitOf v 63 ∧ bits v 55 44 ≠ 0 ∧ bits v 55 44 ≠ 0xFFF ∧ bits v 59 56 ≠ 0 ∧ s.b.dgqFld q 8 63 12 ≠ 0 ∧ s.b.dgqFld q 24 63 12 ≠ 0) ∧
    (∃ (s : State) (q p : Nat) (e frame : List Byte), hasDgq q ∧ s.b.serving .ep ∧ s.b.dgqValid q ∧ s.b.dgqFld q 16 42 32 ≠ s.b.dgqFld q 16 10 0 ∧ s.b.dmaOk .ep ∧ (s.b.pidKey .ep (s.b.dgqPart q)).cur.isSome ∧ Blk.sendEntryOk e ∧ s.b.ep.dgPlane.get q 0 = p ∧ p < 4 ∧ p ∈ s.b.dgqPlanes q (leAt e 10 2)) ∧
    (∃ (s : State) (port buf : Nat) (p : Packet), hasPort .ep port ∧ s.b.serving .ep ∧ Packet.opcode p = 0x38 ∧ EpSound s.b p ∧ s.b.dgqValid (Packet.dgq p) ∧ s.b.dgqPart (Packet.dgq p) = Packet.part p ∧ s.b.keyOk .ep (Packet.part p) (Packet.keyGen p) ∧ Packet.tailMarked p = false ∧ Packet.checkOk p ∧ s.b.dgqFld (Packet.dgq p) 32 42 32 ≠ s.b.dgqFld (Packet.dgq p) 32 10 0 ∧ s.b.dmaOk .ep) ∧
    (∃ (s : State) (port : Nat) (p : Packet), hasPort .ep port ∧ s.b.serving .ep ∧ Packet.opcode p = 0x32 ∧ EpSound s.b p ∧ Packet.hops p = 0 ∧ s.b.flag .ep offAbortCfg 0 = false) ∧
    (∃ (s : State) (pid : Nat), Served s.b .ep) := by
  refine ⟨?_, ?_, ?_, ?_, ?_⟩
  · exact ⟨dgS0, 2, 2^63 + 8 * 2^56 + 5 * 2^44, by (try dsimp only) <;> decide +kernel⟩
  · exact ⟨dgS, 2, 1, entD, zeros 60, by (try dsimp only) <;> decide +kernel⟩
  · exact ⟨dgS, 1, 4096, dgP, by (try dsimp only) <;> decide +kernel⟩
  · exact ⟨dgS, 1, noteP, by (try dsimp only) <;> decide +kernel⟩
  · exact ⟨dgS, 5, by (try dsimp only) <;> decide +kernel⟩

/-- States and operands that meet the hypotheses of SwitchCoreCompletes, clause by clause. -/
theorem witness_SwitchCoreCompletes :
    (∃ (s : State) (port n : Nat) (p : Packet), hasPort .sw port ∧ s.b.serving .sw ∧ s.b.portUp .sw port ∧ Packet.whole p ∧ s.b.sw.lanes.get port [] = [] ∧ Packet.hcrcOk p ∧ Packet.linkLocal p = false ∧ Packet.malformed p = false ∧ Packet.plane p = s.b.swPlane ∧ Packet.hops p ≠ 5 ∧ s.b.lateAt .sw p = false ∧ s.b.pidAborted (Packet.part p) = false ∧ s.b.carries port (Packet.part p) ∧ Packet.tailMarked p = false ∧ s.b.route p port = .eq n) ∧
    (∃ (s : State) (eq : Nat) (k : VoqKey) (c : Copy) (strict : Bool) (b : Blk), hasEq eq ∧ s.b.serving .sw ∧ eq < 72 ∧ s.b.sw.lanes = [] ∧ s.b.sw.intWait = [] ∧ s.b.portUp .sw eq ∧ (s.b.port .sw eq).tx = [] ∧ s.b.choose eq = (some (k, c, strict), b) ∧ s.b.pidAborted c.part = false) ∧
    (∃ (s : State) (id : Nat) (k : VoqKey) (c : Copy), s.b.sw.spills = [(id, k)] ∧ s.b.findCopy id = some c ∧ id ∈ (s.b.voq k).ents) ∧
    (∃ (s : State) (k : VoqKey) (id : Nat) (c : Copy) (ecc : Ecc), hasVoq k ∧ s.b.serving .sw ∧ (s.b.voq k).ents = [id] ∧ s.b.findCopy id = some c ∧ c.where_ = .hbm ∧ s.b.hasFlag k 62 = false ∧ s.b.sw.refillCells + c.cells ≤ 32768 ∧ Packet.slots c.pkt ≤ c.have_ ∧ s.b.pidAborted c.part = false ∧ s.b.lateAt .sw c.pkt = false ∧ ecc.ue = [] ∧ s.b.sw.badLines = []) ∧
    (∃ (s : State) (e : Sample) (rest : List Sample), s.b.sw.samples = e :: rest ∧ e.open_ = none ∧ (s.b.fld .sw offSamplePtr 44 32 + 8192 - s.b.fld .sw offSamplePtr 12 0) % 8192 ≠ 4096 ∧ s.b.dmaOk .sw) ∧
    (∃ (s : State) (c eq : Nat), hasCal c ∧ SwQuiet s.b ∧ eq < 75 ∧ s.b.calOf eq = c) ∧
    (∃ (s : State) (id reason : Nat) (c : Copy), reason ≠ 0 ∧ s.b.findCopy id = some c ∧ c.bad = none ∧ s.b.begunPorts id = [] ∧ s.b.waitingPorts id = [] ∧ c.refs ≤ 1 ∧ (∀ q ∈ s.b.sw.voqs, id ∉ q.ents)) ∧
    (∃ (s : State), s.b.flag .sw offCmapCtl 16 ∧ s.b.sw.cmapAt ≤ s.b.now .sw) ∧
    (∃ (s : State), Served s.b .sw ∧ s.b.fld .sw offSwatchCtl 63 32 ≠ 0 ∧ s.b.flag .sw offSwatchCtl 0 = false) := by
  refine ⟨?_, ?_, ?_, ?_, ?_, ?_, ?_, ?_, ?_⟩
  · exact ⟨rtS, 3, 5, swP 5, by (try dsimp only) <;> decide +kernel⟩
  · exact ⟨cpS .carve, 5, vk 1, cpy .carve, false, ((cpS .carve).b.choose 5).2, by (try dsimp only) <;> decide +kernel⟩
  · exact ⟨spS, 11, vk 1, cpy .carve, by (try dsimp only) <;> decide +kernel⟩
  · exact ⟨cpS .hbm, vk 1, 11, cpy .hbm, ecc0, by (try dsimp only) <;> decide +kernel⟩
  · exact ⟨smS, { bytes := zeros 256, cells := 2, open_ := none }, [], by (try dsimp only) <;> decide +kernel⟩
  · exact ⟨on rtS (fun b => (b.setFlag .sw offLathStatus 4 true).putReg .sw offCalendar (2^40 * 2)), 2, 5, by (try dsimp only) <;> decide +kernel⟩
  · exact ⟨fbS, 11, 1, cpy .carve, by (try dsimp only) <;> decide +kernel⟩
  · exact ⟨on rtS (fun b => b.putReg .sw offCmapCtl (2^32 * 4 + 2^17 + 2^16 + 10)), by (try dsimp only) <;> decide +kernel⟩
  · exact ⟨on rtS (fun b => b.setFld .sw offSwatchCtl 63 32 9), by (try dsimp only) <;> decide +kernel⟩

/-- States and operands that meet the hypotheses of PatchingCompletes, clause by clause. -/
theorem witness_PatchingCompletes :
    (∃ (s : State) (port a : Nat), hasPort .sw port ∧ s.b.inRun .sw ∧ (s.b.port .sw port).loopAt = some a ∧ s.b.lstate .sw port = 4) ∧
    (∃ (s : State) (k t a : Nat), hasLsup .sw k ∧ s.b.inRun .sw ∧ (s.b.core .sw).dark.find k = some a ∧ s.b.tileAt k = some t ∧ a + 10000000 ≤ s.b.now .sw ∧ s.b.tstate t ≠ 2) ∧
    (∃ (s : State) (t : Nat) (w : TileFault), hasTile t ∧ s.b.inRun .sw ∧ s.b.tstate t = 0 ∧ s.b.bucketLevel .sw (.tile t) + 1 < s.b.threshold .sw 3) ∧
    (∃ (s : State) (e : Nat), hasEngine e ∧ s.b.inRun .sw ∧ s.b.engRetired e = false ∧ s.b.sw.engLvl.get e 0 + 1 < s.b.threshold .sw 4) ∧
    (∃ (s : State) (e : Nat), hasEngine e ∧ s.b.inRun .sw ∧ s.b.engRetired e = false ∧ s.b.threshold .sw 4 ≤ s.b.sw.engLvl.get e 0 + 1) ∧
    (∃ (s : State) (t : Nat), Served s.b .sw ∧ s.b.spares ≠ 0 ∧ s.b.flag .sw offPatchStatus 2 = false ∧ s.b.sw.lath.job = none ∧ t ≤ 17 ∧ s.b.tstate t ≠ 2) ∧
    (∃ (s : State) (t : Nat) (rest : List Nat), s.b.inRun .sw ∧ s.b.mayPatch ∧ s.b.sw.patch.active = none ∧ s.b.sw.patch.queue = t :: rest ∧ t < 18) ∧
    (∃ (s : State) (t p : Nat) (rest : List Nat), s.b.inRun .sw ∧ SwQuiet s.b ∧ s.b.mayPatch ∧ s.b.sw.patch.active = some t ∧ t < 18 ∧ s.b.sw.patch.moved = false ∧ s.b.litSpares = p :: rest ∧ s.b.tilePos t < 20) ∧
    (∃ (s : State) (t : Nat), s.b.inRun .sw ∧ s.b.sw.patch.active = some t ∧ s.b.sw.patch.moved ∧ t < 18 ∧ s.b.sw.patch.at_ + 41000000 ≤ s.b.now .sw ∧ s.b.tstate t ≠ 2) := by
  refine ⟨?_, ?_, ?_, ?_, ?_, ?_, ?_, ?_, ?_⟩
  · exact ⟨on retS (fun b => b.modPort .sw 3 (fun p => { p with loopAt := some 5 })), 3, 5, by (try dsimp only) <;> decide +kernel⟩
  · exact ⟨on rtS (fun b => b.modCore .sw (fun c => { c with dark := [(2, 5)] })), 2, 2, 5, by (try dsimp only) <;> decide +kernel⟩
  · exact ⟨rtS, 17, .tables, by (try dsimp only) <;> decide +kernel⟩
  · exact ⟨rtS, 71, by (try dsimp only) <;> decide +kernel⟩
  · exact ⟨on rtS (fun b => b.modSw (fun s => { s with engLvl := [(71, s.lath.log.length + 200)] })), 71, by (try dsimp only) <;> decide +kernel⟩
  · exact ⟨rtS, 17, by (try dsimp only) <;> decide +kernel⟩
  · exact ⟨on rtS (fun b => patchB b (fun p => { p with queue := [17, 2] })), 17, [2], by (try dsimp only) <;> decide +kernel⟩
  · exact ⟨on rtS (fun b => patchB (b.setFld .sw (offLsup .sw 18) 63 60 6) (fun p => { p with active := some 17 })), 17, 18, [], by (try dsimp only) <;> decide +kernel⟩
  · exact ⟨on rtS (fun b => patchB (b.setFld .sw (offTileStatus 17) 55 52 1) (fun p => { p with active := some 17, moved := true })), 17, by (try dsimp only) <;> decide +kernel⟩

/-- States and operands that meet the hypotheses of FabricMemoryCompletes, clause by clause. -/
theorem witness_FabricMemoryCompletes :
    (∃ (s : State) (i l : Nat) (bytes : List Byte) (ecc : Ecc), s.b.inRun .sw ∧ s.bar2Waits (64 * l) 64 = false ∧ bytes.length = 64 ∧ s.b.bar2Part (64 * l) 64 = some i) ∧
    (∃ (s : State) (i l : Nat), hasIndex i ∧ s.b.sweepActive i ∧ s.b.flag .sw offStatus 12 = false ∧ s.b.serving .sw ∧ s.b.sweepPtr i = l ∧ s.b.homeStopped (64 * l) 64 = false ∧ s.b.calMay 72 (s.b.partId i) ∧ s.b.ueFree.isSome ∧ s.b.lineForced l = false ∧ s.b.sw.badLines = [] ∧ (s.line l).init ∧ l + 1 < 2 ^ 38) ∧
    (∃ (s : State) (l : Nat), s.b.homeStopped (64 * l) 64 = false ∧ s.b.calMay 72 (s.b.lineOwner l) ∧ s.b.serving .sw ∧ l < s.b.carveLines ∧ s.b.sw.badLines = [] ∧ s.b.sw.ceLines = [] ∧ s.b.sw.ueRows = []) := by
  refine ⟨?_, ?_, ?_⟩
  · exact ⟨b2S, 0, 32767, zeros 64, ecc0, by (try dsimp only) <;> decide +kernel⟩
  · exact ⟨swpS, 0, 5, by (try dsimp only) <;> decide +kernel⟩
  · exact ⟨swpS, 7, by (try dsimp only) <;> decide +kernel⟩

/-- States and operands that meet the hypotheses of LathCompletes, clause by clause. -/
theorem witness_LathCompletes :
    (∃ (s : State) (m : List Byte) (part : Option (Nat × Nat × Nat)), s.b.clocked .sw ∧ (s.b.core .sw).mbox.taken.find? (fun x => msgCode x == 0x10) = some m ∧ s.b.stateRefuses .sw 0x10 = none ∧ msgReserved m 12 ∧ s.b.sw.lath.job = none ∧ s.b.sw.lath.heldMsg = none ∧ s.b.inSupplyHold = false ∧ s.b.swc.boot.started ∧ msgArg m 0 8 % 4096 = 0 ∧ 1472 ≤ msgArg m 8 4 ∧ msgArg m 8 4 ≤ 4194304 ∧ s.b.canDma .sw) ∧
    (∃ (s : State) (j : LathJob) (raw : List Byte), s.b.inRun .sw ∧ s.b.sw.lath.job = some j ∧ j.image = none ∧ s.b.inSupplyHold = false) ∧
    (∃ (s : State) (j : LathJob) (m : List Byte), s.b.inRun .sw ∧ SwQuiet s.b ∧ s.b.inSupplyHold = false ∧ s.b.sw.lath.job = some j ∧ j.image = some m) ∧
    (∃ (s : State) (g : Nat), hasGroup g ∧ s.b.inRun .sw) ∧
    (∃ (s : State) (m : List Byte) (part : Option (Nat × Nat × Nat)), s.b.clocked .sw ∧ (s.b.core .sw).mbox.taken.find? (fun x => msgCode x == 0x10) = some m ∧ s.b.stateRefuses .sw 0x10 = none ∧ msgReserved m 12 ∧ (s.b.sw.lath.job.isSome ∨ s.b.sw.lath.heldMsg.isSome)) ∧
    (∃ (s : State) (m : List Byte) (part : Option (Nat × Nat × Nat)), s.b.clocked .sw ∧ (s.b.core .sw).mbox.taken.find? (fun x => msgCode x == 0x10) = some m ∧ s.b.stateRefuses .sw 0x10 = none ∧ msgReserved m 12 ∧ s.b.sw.lath.job = none ∧ s.b.sw.lath.heldMsg = none ∧ s.b.inSupplyHold) := by
  refine ⟨?_, ?_, ?_, ?_, ?_, ?_⟩
  · exact ⟨ltS, ltMsg, none, by (try dsimp only) <;> decide +kernel⟩
  · exact ⟨ltJS none, ltJ none, [], by (try dsimp only) <;> decide +kernel⟩
  · exact ⟨ltJS (some (zeros 1472)), ltJ (some (zeros 1472)), zeros 1472, by (try dsimp only) <;> decide +kernel⟩
  · exact ⟨rtS, 3, by (try dsimp only) <;> decide +kernel⟩
  · exact ⟨on ltS (fun b => b.modLath (fun l => { l with heldMsg := some ltMsg })), ltMsg, none, by (try dsimp only) <;> decide +kernel⟩
  · exact ⟨on ltS (fun b => b.setFlag .sw offStatus 12 true), ltMsg, none, by (try dsimp only) <;> decide +kernel⟩

/-- States and operands that meet the hypotheses of SpdmCompletes, clause by clause. -/
theorem witness_SpdmCompletes :
    (∃ (s : State) (d : Dev), ∃ i, s.b.clocked d ∧ i < 3) ∧
    (∃ (s : State) (d : Dev), ∃ id, ∃ x, s.b.clocked d ∧ s.b.session d id = some x ∧ x.lastMsg + 120000000000 ≤ s.b.now d) ∧
    (∃ (s : State) (d : Dev), s.b.clocked d) ∧
    (∃ (s : State) (d : Dev) (o : AlgOffer), SpdmReady s.b d ∧ o.baseAsym ∧ o.reqAsym ∧ o.hash ∧ o.measHash ∧ o.dhe ∧ o.aead ∧ o.keySched) ∧
    (∃ (s : State) (d : Dev), SpdmReady s.b d ∧ (s.b.spdm d).algs) ∧
    (∃ (s : State) (d : Dev), SpdmReady s.b d ∧ (s.b.spdm d).algs ∧ (s.b.core d).certOk) ∧
    (∃ (s : State) (d : Dev), SpdmReady s.b d ∧ (s.b.spdm d).algs ∧ (s.b.core d).certOk ∧ (s.b.spdm d).sessions.length < 8) ∧
    (∃ (s : State) (d : Dev), ∃ code, SpdmReady s.b d ∧ code ∉ Blk.spdmCodes) ∧
    (∃ (s : State) (d : Dev), ∃ i, SpdmReady s.b d ∧ (s.b.spdm d).deferred = some i) ∧
    (∃ (s : State) (d : Dev), SpdmReady s.b d) ∧
    (∃ (s : State) (d : Dev) (id : Nat) (x : Session), SpdmReady s.b d ∧ s.b.session d id = some x ∧ x.open_ = false ∧ x.agent = none) ∧
    (∃ (s : State) (d : Dev) (id : Nat) (x : Session), SpdmReady s.b d ∧ s.b.session d id = some x ∧ x.open_ = false) ∧
    (∃ (s : State) (d : Dev) (id : Nat) (x : Session), SpdmReady s.b d ∧ s.b.session d id = some x ∧ x.open_ = false ∧ x.agent.isSome) ∧
    (∃ (s : State) (d : Dev) (id : Nat) (x : Session), SpdmReady s.b d ∧ s.b.session d id = some x ∧ x.open_) ∧
    (∃ (s : State) (d : Dev) (id : Nat) (x : Session), SpdmReady s.b d ∧ s.b.session d id = some x ∧ x.open_ ∧ (s.b.spdm d).algs) ∧
    (∃ (s : State) (d : Dev) (id : Nat) (x : Session), ∃ q, SpdmReady s.b d ∧ s.b.session d id = some x ∧ x.open_ ∧ Blk.reqCmd q ∉ [1, 2, 3, 4, 5, 0x10, 0x11, 0x12, 0x13, 0x20, 0x21]) := by
  refine ⟨?_, ?_, ?_, ?_, ?_, ?_, ?_, ?_, ?_, ?_, ?_, ?_, ?_, ?_, ?_, ?_⟩
  · exact ⟨spS1 .sw true (some agX), .sw, 2, by (try dsimp only) <;> decide +kernel⟩
  · exact ⟨on (spS1 .sw true none) (fun b => b.modCore .sw (fun c => { c with now := 120000000000 })), .sw, 1, sess true none, by (try dsimp only) <;> decide +kernel⟩
  · exact ⟨base, .ep, by (try dsimp only) <;> decide +kernel⟩
  · exact ⟨spS1 .sw true (some agX), .sw, offer, by (try dsimp only) <;> decide +kernel⟩
  · exact ⟨spS1 .sw true (some agX), .sw, by (try dsimp only) <;> decide +kernel⟩
  · exact ⟨spS1 .sw true (some agX), .sw, by (try dsimp only) <;> decide +kernel⟩
  · exact ⟨spS1 .sw true (some agX), .sw, by (try dsimp only) <;> decide +kernel⟩
  · exact ⟨spS1 .sw true (some agX), .sw, 0x55, by (try dsimp only) <;> decide +kernel⟩
  · exact ⟨on (spS1 .sw true none) (fun b => b.modSpdm .sw (fun x => { x with deferred := some (.getDigests .sw none) })), .sw, Instr.getDigests .sw none, by (try dsimp only) <;> decide +kernel⟩
  · exact ⟨spS1 .sw true (some agX), .sw, by (try dsimp only) <;> decide +kernel⟩
  · exact ⟨spS1 .ep false none, .ep, 1, sess false none, by (try dsimp only) <;> decide +kernel⟩
  · exact ⟨spS1 .ep false none, .ep, 1, sess false none, by (try dsimp only) <;> decide +kernel⟩
  · exact ⟨spS1 .ep false (some agX), .ep, 1, sess false (some agX), by (try dsimp only) <;> decide +kernel⟩
  · exact ⟨spS1 .sw true (some agX), .sw, 1, sess true (some agX), by (try dsimp only) <;> decide +kernel⟩
  · exact ⟨spS1 .sw true (some agX), .sw, 1, sess true (some agX), by (try dsimp only) <;> decide +kernel⟩
  · exact ⟨spS1 .sw true (some agX), .sw, 1, sess true (some agX), [6#8, 0#8, 9#8, 0#8], by (try dsimp only) <;> decide +kernel⟩

/-- States and operands that meet the hypotheses of KeyCommandsComplete, clause by clause. -/
theorem witness_KeyCommandsComplete :
    (∃ (s : State) (d : Dev) (h : GenardHead) (x : Session) (n : Nat), let a := Blk.reqArgs h.req; let e := s.b.keyEnt d n; s.b.keyNo d (Blk.reqPart h.req) = some n ∧ ((s.b.keyEnt d n).agent = none ∨ (s.b.keyEnt d n).agent = x.agent) ∧ (d = .sw → s.b.relathing (Blk.reqPart h.req) = false) ∧ GenardIn s.b d h x 1 80 ∧ (d = .sw → leAt a 0 8 = 0) ∧ (d = .ep → leAt a 0 8 < 2 ∧ leAt a 16 64 = 0) ∧ (d = .ep → e.used ∨ s.b.epEntries < 64) ∧ e.flipAt = none ∧ e.cur = none) ∧
    (∃ (s : State) (d : Dev) (h : GenardHead) (x : Session) (n : Nat), let a := Blk.reqArgs h.req; let e := s.b.keyEnt d n; s.b.keyNo d (Blk.reqPart h.req) = some n ∧ ((s.b.keyEnt d n).agent = none ∨ (s.b.keyEnt d n).agent = x.agent) ∧ (d = .sw → s.b.relathing (Blk.reqPart h.req) = false) ∧ GenardIn s.b d h x 1 80 ∧ (d = .sw → leAt a 0 8 = 0) ∧ (d = .ep → leAt a 0 8 < 2 ∧ leAt a 16 64 = 0) ∧ (d = .ep → e.used ∨ s.b.epEntries < 64) ∧ e.flipAt = none ∧ e.cur.isSome ∧ e.other = .empty) ∧
    (∃ (s : State) (d : Dev) (h : GenardHead) (x : Session) (n : Nat), let a := Blk.reqArgs h.req; let e := s.b.keyEnt d n; s.b.keyNo d (Blk.reqPart h.req) = some n ∧ ((s.b.keyEnt d n).agent = none ∨ (s.b.keyEnt d n).agent = x.agent) ∧ (d = .sw → s.b.relathing (Blk.reqPart h.req) = false) ∧ GenardIn s.b d h x 2 8 ∧ e.flipAt = none ∧ e.other = .new ∧ e.holdoff = none ∧ (d = .sw → s.b.sweepActive n = false) ∧ 1000000 ≤ (leAt a 0 8 + 2 ^ 64 - s.b.timeNs d) % 2 ^ 64 ∧ (leAt a 0 8 + 2 ^ 64 - s.b.timeNs d) % 2 ^ 64 ≤ 10000000000) ∧
    (∃ (s : State) (d : Dev) (h : GenardHead) (x : Session) (n : Nat), let e := s.b.keyEnt d n; s.b.keyNo d (Blk.reqPart h.req) = some n ∧ ((s.b.keyEnt d n).agent = none ∨ (s.b.keyEnt d n).agent = x.agent) ∧ (d = .sw → s.b.relathing (Blk.reqPart h.req) = false) ∧ GenardIn s.b d h x 3 0 ∧ e.flipAt = none ∧ e.other = .previous ∧ (d = .sw → s.b.sweepActive n = false ∧ s.b.oldLines n = 0)) ∧
    (∃ (s : State) (d : Dev) (h : GenardHead) (x : Session) (n : Nat), let e := s.b.keyEnt d n; s.b.keyNo d (Blk.reqPart h.req) = some n ∧ ((s.b.keyEnt d n).agent = none ∨ (s.b.keyEnt d n).agent = x.agent) ∧ (d = .sw → s.b.relathing (Blk.reqPart h.req) = false) ∧ d = .sw ∧ GenardIn s.b d h x 4 0 ∧ e.flipAt = none ∧ e.other = .previous ∧ s.b.sweepActive n = false ∧ s.b.oldLines n = (s.b.unforced n).length) ∧
    (∃ (s : State) (d : Dev) (h : GenardHead) (x : Session) (n : Nat), s.b.keyNo d (Blk.reqPart h.req) = some n ∧ ((s.b.keyEnt d n).agent = none ∨ (s.b.keyEnt d n).agent = x.agent) ∧ (d = .sw → s.b.relathing (Blk.reqPart h.req) = false) ∧ d = .ep ∧ GenardIn s.b d h x 5 0) ∧
    (∃ (s : State) (d : Dev) (h : GenardHead) (x : Session) (n : Nat), s.b.keyNo d (Blk.reqPart h.req) = some n ∧ ((s.b.keyEnt d n).agent = none ∨ (s.b.keyEnt d n).agent = x.agent) ∧ (d = .sw → s.b.relathing (Blk.reqPart h.req) = false) ∧ GenardIn s.b d h x 0x10 0) ∧
    (∃ (s : State) (h : GenardHead) (x : Session) (i : Nat), s.b.partIndex (Blk.reqPart h.req) = some i ∧ (s.b.keyEnt .sw i).agent.isSome ∧ (s.b.keyEnt .sw i).agent = x.agent ∧ GenardIn s.b .sw h x 0x11 0) ∧
    (∃ (s : State) (h : GenardHead) (x : Session) (i : Nat), s.b.partIndex (Blk.reqPart h.req) = some i ∧ (s.b.keyEnt .sw i).agent.isSome ∧ (s.b.keyEnt .sw i).agent = x.agent ∧ GenardIn s.b .sw h x 0x12 2 ∧ s.b.slotOutside (leAt (Blk.reqArgs h.req) 0 2) i = false) ∧
    (∃ (s : State) (h : GenardHead) (x : Session) (i : Nat), s.b.partIndex (Blk.reqPart h.req) = some i ∧ (s.b.keyEnt .sw i).agent.isSome ∧ (s.b.keyEnt .sw i).agent = x.agent ∧ GenardIn s.b .sw h x 0x13 0) ∧
    (∃ (s : State) (h : GenardHead) (x : Session), GenardIn s.b .sw h x 0x21 8) ∧
    (∃ (s : State) (h : GenardHead) (x : Session), let args := Blk.reqArgs h.req; GenardIn s.b .sw h x 0x20 1036 ∧ s.b.sw.lath.owner = none ∧ leAt args 512 4 = 65537 ∧ (slice args 0 512).any (fun y => y != 0#8)) ∧
    (∃ (s : State) (d : Dev) (pid n : Nat), let e := s.b.keyEnt d n; ∃ at_, s.b.inRun d ∧ s.b.keyNo d (pid % 4096) = some n ∧ e.flipAt = some at_ ∧ (s.b.timeNs d + 2 ^ 64 - at_) % 2 ^ 64 < 2 ^ 63) ∧
    (∃ (s : State) (d : Dev) (pid n : Nat), let e := s.b.keyEnt d n; s.b.inRun d ∧ s.b.keyNo d (pid % 4096) = some n ∧ e.other = .retiring ∧ s.b.oldHeld d (pid % 4096) e = false ∧ e.lastOld + 600000 ≤ s.b.now d) ∧
    (∃ (s : State) (d : Dev) (pid n : Nat), let e := s.b.keyEnt d n; ∃ at_, s.b.inRun d ∧ s.b.keyNo d (pid % 4096) = some n ∧ e.holdoff = some at_ ∧ at_ + 800000 ≤ s.b.now d) ∧
    (∃ (s : State) (pid : Nat), Served s.b .ep) := by
  refine ⟨?_, ?_, ?_, ?_, ?_, ?_, ?_, ?_, ?_, ?_, ?_, ?_, ?_, ?_, ?_, ?_⟩
  · exact ⟨kyS (KeyEnt.empty), .sw, gh 1 insArgs, sess true (some agX), 0, by (try dsimp only) <;> decide +kernel⟩
  · exact ⟨kyS (ke .empty), .ep, gh 1 (leBytes 8 1 ++ leBytes 8 3 ++ zeros 64), sess true (some agX), 5, by (try dsimp only) <;> decide +kernel⟩
  · exact ⟨kyS (ke .new), .sw, gh 2 (leBytes 8 1001000000), sess true (some agX), 0, by (try dsimp only) <;> decide +kernel⟩
  · exact ⟨kyS (ke .previous), .sw, gh 3, sess true (some agX), 0, by (try dsimp only) <;> decide +kernel⟩
  · exact ⟨on (kyS (ke .previous)) (fun b => (b.putReg .sw (offUe 63) (2^63 + 9)).setFld .sw (offFmemOld 0) 33 0 1), .sw, gh 4, sess true (some agX), 0, by (try dsimp only) <;> decide +kernel⟩
  · exact ⟨kyS (ke .empty), .ep, gh 5, sess true (some agX), 5, by (try dsimp only) <;> decide +kernel⟩
  · exact ⟨kyS (ke .new), .sw, gh 0x10, sess true (some agX), 0, by (try dsimp only) <;> decide +kernel⟩
  · exact ⟨kyS (ke .new), gh 0x11, sess true (some agX), 0, by (try dsimp only) <;> decide +kernel⟩
  · exact ⟨kyS (ke .new), gh 0x12 [3#8, 0#8], sess true (some agX), 0, by (try dsimp only) <;> decide +kernel⟩
  · exact ⟨kyS (ke .new), gh 0x13, sess true (some agX), 0, by (try dsimp only) <;> decide +kernel⟩
  · exact ⟨kyS (ke .new), gh 0x21 (zeros 8), sess true (some agX), by (try dsimp only) <;> decide +kernel⟩
  · exact ⟨kyS (ke .new), gh 0x20 ownArgs, sess true (some agX), by (try dsimp only) <;> decide +kernel⟩
  · exact ⟨kyS { ke .new with flipAt := some 1000000000 }, .sw, 5, 0, 1000000000, by (try dsimp only) <;> decide +kernel⟩
  · exact ⟨kyS (ke .retiring), .ep, 5, 5, by (try dsimp only) <;> decide +kernel⟩
  · exact ⟨kyS { ke .empty with holdoff := some 1000 }, .ep, 5, 5, 1000, by (try dsimp only) <;> decide +kernel⟩
  · exact ⟨on (kyS (ke .new)) (fun b => b.modEp (fun e => { e with fc := fcS.b.ep.fc })), 5, by (try dsimp only) <;> decide +kernel⟩

/-- States and operands that meet the hypotheses of SlotsComplete, clause by clause. -/
theorem witness_SlotsComplete :
    (∃ (s : State) (n : Nat), hasSlot n ∧ Served s.b .sw ∧ s.b.sw.waiting = [] ∧ s.b.slotState n = 0 ∧ s.b.admitCause n = 0) ∧
    (∃ (s : State) (n : Nat), hasSlot n ∧ Served s.b .sw ∧ s.b.sw.waiting = [] ∧ s.b.slotState n = 0 ∧ s.b.admitCause n ≠ 0) ∧
    (∃ (s : State) (n : Nat), hasSlot n ∧ Served s.b .sw ∧ s.b.sw.waiting = [] ∧ s.b.slotState n ≠ 0) ∧
    (∃ (s : State) (n : Nat), hasSlot n ∧ Served s.b .sw ∧ s.b.sw.waiting = [] ∧ s.b.slotState n = 2 ∧ s.b.isRoot n) ∧
    (∃ (s : State) (n : Nat), hasSlot n ∧ Served s.b .sw ∧ s.b.sw.waiting = [] ∧ (s.b.slotState n ≠ 2 ∨ s.b.isRoot n = false)) ∧
    (∃ (s : State) (n : Nat), hasSlot n ∧ Served s.b .sw ∧ s.b.sw.waiting = [] ∧ s.b.slotState n ≠ 0) ∧
    (∃ (s : State) (n : Nat), hasSlot n ∧ Served s.b .sw ∧ s.b.sw.waiting = [] ∧ s.b.slotState n = 0) ∧
    (∃ (s : State) (n i : Nat), let same := (upto 1024).filter (fun m => s.b.collPart m == s.b.collPart n); hasSlot n ∧ s.b.serving .sw ∧ s.b.slotState n = 1 ∧ s.b.partIndex (s.b.collPart n) = some i ∧ (∀ m ∈ same, m ≠ n → s.b.slotState m = 1 → (s.b.slot n).order ≤ (s.b.slot m).order) ∧ same.foldl (fun a m => a + (s.b.slot m).reserved) 0 + s.b.reservation n ≤ s.b.partRmem i) := by
  refine ⟨?_, ?_, ?_, ?_, ?_, ?_, ?_, ?_⟩
  · exact ⟨clS 0 0 false id, 2, by (try dsimp only) <;> decide +kernel⟩
  · exact ⟨on (clS 0 0 false id) (fun b => b.setFlag .sw (offLeg 2 1) 62 true), 2, by (try dsimp only) <;> decide +kernel⟩
  · exact ⟨clS 0 4 false id, 2, by (try dsimp only) <;> decide +kernel⟩
  · exact ⟨clS 0 2 false (fun x => { x with blocks := [blk1, { blk1 with chunk := 0, result := some retX }] }), 2, by (try dsimp only) <;> decide +kernel⟩
  · exact ⟨clS 1 2 false id, 2, by (try dsimp only) <;> decide +kernel⟩
  · exact ⟨clS 1 4 false scr, 2, by (try dsimp only) <;> decide +kernel⟩
  · exact ⟨clS 1 0 false id, 2, by (try dsimp only) <;> decide +kernel⟩
  · exact ⟨clS 0 1 false (fun x => { x with order := 3 }), 2, 0, by (try dsimp only) <;> decide +kernel⟩

/-- States and operands that meet the hypotheses of CollectivePacketsComplete, clause by clause. -/
theorem witness_CollectivePacketsComplete :
    (∃ (s : State) (port n : Nat) (p : Packet) (mis : Bool), let c := Packet.chunk p; ∃ e, ∃ x, CollBelow s.b port p 0x20 0 n e false ∧ s.b.legChild n e = false ∧ (s.b.slot n).screed ∧ e ∈ (s.b.slot n).joined ∧ c < s.b.nchunks n ∧ Blk.fragFits p (s.b.chunkFragLast n c) (min 4096 (s.b.chunkBytes n c - 4096 * Packet.frag p)) ∧ s.b.settled n c = false ∧ s.b.blockFor n c = some x ∧ bitOf ((Blk.legRec x e).frags.get 0 0) (Packet.frag p) = false) ∧
    (∃ (s : State) (port n : Nat) (p : Packet) (mis : Bool), let c := Packet.chunk p; ∃ e, CollBelow s.b port p 0x20 0 n e false ∧ s.b.legChild n e = false ∧ (s.b.slot n).screed ∧ e ∈ (s.b.slot n).joined ∧ c < s.b.nchunks n ∧ Blk.fragFits p (s.b.chunkFragLast n c) (min 4096 (s.b.chunkBytes n c - 4096 * Packet.frag p)) ∧ (s.b.settled n c ∨ ∃ x, s.b.findBlock n c = some x ∧ bitOf ((Blk.legRec x e).frags.get 0 0) (Packet.frag p))) ∧
    (∃ (s : State) (port n : Nat) (p : Packet) (mis : Bool), let c := Packet.chunk p; ∃ e, ∃ x, let ec := s.b.chunkElems n (c / 64); CollBelow s.b port p 0x21 0 n e false ∧ s.b.legChild n e ∧ (s.b.slot n).screed ∧ c / 64 < s.b.nchunks n ∧ c % 64 < (ec + 4095) / 4096 ∧ Blk.fragFits p (partFragLast ec (s.b.wInForce n) (c % 64)) (partFragBytes ec (s.b.wInForce n) (c % 64) (Packet.frag p)) ∧ s.b.settled n (c / 64) = false ∧ s.b.blockFor n (c / 64) = some x ∧ bitOf ((Blk.legRec x e).frags.get (c % 64) 0) (Packet.frag p) = false) ∧
    (∃ (s : State) (port n : Nat) (p : Packet) (mis : Bool), let c := Packet.chunk p; ∃ e, CollBelow s.b port p 0x22 0 n e false ∧ s.b.collExp n ∧ c % 2048 = 0 ∧ c < s.b.nchunks n ∧ (s.b.slot n).screed = false) ∧
    (∃ (s : State) (port n : Nat) (p : Packet) (mis : Bool), ∃ e, CollBelow s.b port p 0x25 4 n e false ∧ s.b.legChild n e ∧ (s.b.slot n).screed) ∧
    (∃ (s : State) (port n : Nat) (p : Packet) (mis : Bool), ∃ e, CollBelow s.b port p 0x25 4 n e false ∧ s.b.legChild n e ∧ (s.b.slot n).screed = false) ∧
    (∃ (s : State) (port n : Nat) (p : Packet) (mis : Bool), ∃ e, CollBelow s.b port p 0x25 2 n e false ∧ s.b.legChild n e = false ∧ bits (leAt p.payload 4 1) 2 0 = s.b.cfld n 0 5 3) ∧
    (∃ (s : State) (port n : Nat) (p : Packet) (mis : Bool), ∃ e, CollBelow s.b port p 0x25 2 n e false ∧ s.b.legChild n e = false ∧ bits (leAt p.payload 4 1) 2 0 ≠ s.b.cfld n 0 5 3) ∧
    (∃ (s : State) (port n : Nat) (p : Packet) (mis : Bool), let c := Packet.chunk p; let all := fun (l : List Nat) (e : Nat) => ∀ g ∈ s.b.legs n, g = e ∨ g ∈ l; ∃ e, let have_ := (s.b.slot n).acks.get c []; CollBelow s.b port p 0x25 1 n e true ∧ c < s.b.nchunks n ∧ s.b.isRoot n = false ∧ all have_ e ∧ c ∉ (s.b.slot n).ackUp) ∧
    (∃ (s : State) (port n : Nat) (p : Packet) (mis : Bool), let c := Packet.chunk p; ∃ e, let have_ := (s.b.slot n).acks.get c []; CollBelow s.b port p 0x25 1 n e true ∧ c < s.b.nchunks n ∧ s.b.isRoot n = false ∧ (∃ g ∈ s.b.legs n, g ≠ e ∧ g ∉ have_)) ∧
    (∃ (s : State) (port n : Nat) (p : Packet) (mis : Bool), let c := Packet.chunk p; let all := fun (l : List Nat) (e : Nat) => ∀ g ∈ s.b.legs n, g = e ∨ g ∈ l; ∃ e, let have_ := (s.b.slot n).acks.get c []; CollBelow s.b port p 0x25 1 n e true ∧ c < s.b.nchunks n ∧ s.b.isRoot n ∧ c = s.b.lowOf n ∧ all have_ e ∧ (s.b.findBlock n c).any (fun x => x.result.isSome)) ∧
    (∃ (s : State) (port n : Nat) (p : Packet) (mis : Bool), ∃ e, CollBelow s.b port p 0x25 7 n e true) ∧
    (∃ (s : State) (port n : Nat) (p : Packet) (mis : Bool), ∃ e, CollBelow s.b port p 0x25 6 n e true ∧ (s.b.slot n).doneAt.isSome) ∧
    (∃ (s : State) (port n : Nat) (p : Packet) (mis : Bool), CollTaken s.b port p 0x26 1 n ∧ (if s.b.memberLegs n then (s.b.legOf n port p).isSome else ∃ e ∈ s.b.legs n, s.b.legPort n e = port) ∧ s.b.isRoot n = false) ∧
    (∃ (s : State) (port n : Nat) (p : Packet) (mis : Bool), let c := Packet.chunk p; ∃ x, ∃ r, CollTaken s.b port p 0x26 1 n ∧ (if s.b.memberLegs n then (s.b.legOf n port p).isSome else ∃ e ∈ s.b.legs n, s.b.legPort n e = port) ∧ s.b.isRoot n ∧ s.b.findBlock n c = some x ∧ x.result = some r) ∧
    (∃ (s : State) (port n : Nat) (p : Packet) (mis : Bool), let c := Packet.chunk p; ∃ e, CollBelow s.b port p 0x26 2 n e false ∧ s.b.legChild n e ∧ c < s.b.nchunks n ∧ (s.b.isRoot n → s.b.rounded n c = false)) ∧
    (∃ (s : State) (port n : Nat) (p : Packet) (mis : Bool), CollAbove s.b port p 0x23 0 n ∧ leAt p.payload 2 1 = s.b.arithWidth n ∧ leAt p.payload 3 1 = s.b.arithDtype n) ∧
    (∃ (s : State) (port n : Nat) (p : Packet) (mis : Bool), CollAbove s.b port p 0x25 5 n) ∧
    (∃ (s : State) (port n : Nat) (p : Packet) (mis : Bool), CollAbove s.b port p 0x26 3 n) ∧
    (∃ (s : State) (port n : Nat) (p : Packet) (mis : Bool), CollAbove s.b port p 0x25 6 n) ∧
    (∃ (s : State) (port n : Nat) (p : Packet) (mis : Bool), let c := Packet.chunk p; CollAbove s.b port p 0x24 0 n ∧ Packet.dst p = 16383 ∧ c ∈ (s.b.slot n).ackUp) ∧
    (∃ (s : State) (port n : Nat) (p : Packet) (mis : Bool), let c := Packet.chunk p; CollAbove s.b port p 0x24 0 n ∧ Packet.dst p = 16383 ∧ c ∉ (s.b.slot n).ackUp ∧ (s.b.slot n).acks.get c [] = []) ∧
    (∃ (s : State) (port n : Nat) (p : Packet) (mis : Bool), let c := Packet.chunk p; CollAbove s.b port p 0x24 0 n ∧ Packet.dst p = 16383 ∧ c ∉ (s.b.slot n).ackUp ∧ (s.b.slot n).acks.get c [] ≠ []) ∧
    (∃ (s : State) (port n : Nat) (p : Packet) (mis : Bool), let c := Packet.chunk p; CollAbove s.b port p 0x27 1 n ∧ leAt p.payload 1 1 ≠ 0 ∧ c < s.b.nchunks n) := by
  refine ⟨?_, ?_, ?_, ?_, ?_, ?_, ?_, ?_, ?_, ?_, ?_, ?_, ?_, ?_, ?_, ?_, ?_, ?_, ?_, ?_, ?_, ?_, ?_, ?_⟩
  · exact ⟨clS 0 2 false scr, 3, 2, ctb, false, 0, blk1, by (try dsimp only) <;> decide +kernel⟩
  · exact ⟨clS 1 2 false (fun s => { scr s with blocks := [{ blk1 with legs := [(0, legX)] }] }), 3, 2, ctb, false, 0, by (try dsimp only) <;> decide +kernel⟩
  · exact ⟨clS 3 2 false scr, 3, 2, ptb, false, 0, blk1, by (try dsimp only) <;> decide +kernel⟩
  · exact ⟨clS 1 2 true id, 3, 2, expP, false, 0, by (try dsimp only) <;> decide +kernel⟩
  · exact ⟨clS 2 2 false scr, 3, 2, ctl 0x25 4 0 0 [] [], false, 0, by (try dsimp only) <;> decide +kernel⟩
  · exact ⟨clS 2 2 false id, 3, 2, ctl 0x25 4 0 0 [] [], false, 0, by (try dsimp only) <;> decide +kernel⟩
  · exact ⟨clS 1 2 false id, 3, 2, ctl 0x25 2 0 0 [] [], false, 0, by (try dsimp only) <;> decide +kernel⟩
  · exact ⟨clS 1 2 false id, 3, 2, ctl 0x25 2 0 0 [1#8] [], false, 0, by (try dsimp only) <;> decide +kernel⟩
  · exact ⟨clS 1 2 false (fun x => { x with acks := [(1, [1])] }), 3, 2, ctl 0x25 1 0 1 [] [], false, 0, by (try dsimp only) <;> decide +kernel⟩
  · exact ⟨clS 1 2 false id, 3, 2, ctl 0x25 1 0 1 [] [], false, 0, by (try dsimp only) <;> decide +kernel⟩
  · exact ⟨clS 0 2 false (fun x => { x with acks := [(0, [1])], blocks := [{ blk1 with chunk := 0, result := some retX }] }), 3, 2, ctl 0x25 1 0 0 [] [], false, 0, by (try dsimp only) <;> decide +kernel⟩
  · exact ⟨clS 1 3 false (fun x => { x with closeAcks := [1] }), 3, 2, ctl 0x25 7 0 0 [] [], false, 0, by (try dsimp only) <;> decide +kernel⟩
  · exact ⟨clS 0 2 false (fun x => { x with doneAcks := [1], doneAt := some 4 }), 3, 2, ctl 0x25 6 0 0 [] [], false, 0, by (try dsimp only) <;> decide +kernel⟩
  · exact ⟨clS 2 2 false scr, 3, 2, ctl 0x26 1 0 1 [] (leBytes 8 0 ++ []), false, by (try dsimp only) <;> decide +kernel⟩
  · exact ⟨clS 0 2 false (fun x => { x with blocks := [{ blk1 with result := some retX }] }), 3, 2, ctl 0x26 1 0 1 [] (beBytes 8 1), false, { blk1 with result := some retX }, retX, by (try dsimp only) <;> decide +kernel⟩
  · exact ⟨clS 2 2 false scr, 3, 2, ctl 0x26 2 0 1 [] [], false, 0, by (try dsimp only) <;> decide +kernel⟩
  · exact ⟨clS 1 2 false id, 5, 2, cpk 0x23 5 0 0 false [0xFF#8, 0xF0#8, 0#8, 0#8], false, by (try dsimp only) <;> decide +kernel⟩
  · exact ⟨clS 1 2 false (fun x => { x with ackUp := [0], acks := [(0, [1]), (1, [0])] }), 5, 2, ctl 0x25 5 0 1 [] [], false, by (try dsimp only) <;> decide +kernel⟩
  · exact ⟨clS 2 2 false (fun x => { x with blocks := [blk1] }), 5, 2, ctl 0x26 3 0 0 [] [], false, by (try dsimp only) <;> decide +kernel⟩
  · exact ⟨clS 1 3 false id, 5, 2, ctl 0x25 6 0 0 [] [], false, by (try dsimp only) <;> decide +kernel⟩
  · exact ⟨clS 1 2 false (fun x => { x with ackUp := [1] }), 5, 2, cpk 0x24 5 1 0 true (zeros 256), false, by (try dsimp only) <;> decide +kernel⟩
  · exact ⟨clS 1 2 false id, 5, 2, cpk 0x24 5 1 0 true (zeros 256), false, by (try dsimp only) <;> decide +kernel⟩
  · exact ⟨clS 1 2 false (fun x => { x with acks := [(1, [1])] }), 5, 2, cpk 0x24 5 1 0 true (zeros 256), false, by (try dsimp only) <;> decide +kernel⟩
  · exact ⟨clS 1 2 false (fun x => { x with blocks := [blk1] }), 5, 2, ctl 0x27 1 1 1 [] [], false, by (try dsimp only) <;> decide +kernel⟩

/-- States and operands that meet the hypotheses of CollTimersComplete, clause by clause. -/
theorem witness_CollTimersComplete :
    (∃ (s : State) (n : Nat), hasSlot n ∧ s.b.serving .sw ∧ s.b.sw.waiting = [] ∧ s.b.slotState n = 2 ∧ s.b.isRoot n ∧ s.b.inSupplyHold = false ∧ (s.b.slot n).doneAt = none ∧ (s.b.slot n).progressAt + s.b.collTimeout n ≤ s.b.now .sw) ∧
    (∃ (s : State) (n : Nat), ∃ t0, hasSlot n ∧ s.b.serving .sw ∧ s.b.sw.waiting = [] ∧ s.b.slotState n = 3 ∧ s.b.isRoot n ∧ (s.b.slot n).doneAt = none ∧ (s.b.slot n).closeAt = some t0 ∧ t0 + s.b.collTimeout n ≤ s.b.now .sw) ∧
    (∃ (s : State) (n : Nat), ∃ t0, hasSlot n ∧ s.b.serving .sw ∧ s.b.sw.waiting = [] ∧ (s.b.slotState n = 2 ∨ s.b.slotState n = 3) ∧ (s.b.slot n).doneAt = some t0 ∧ t0 + s.b.collTimeout n ≤ s.b.now .sw) ∧
    (∃ (s : State) (n : Nat), hasSlot n ∧ s.b.serving .sw ∧ s.b.sw.waiting = [] ∧ s.b.slotState n = 2 ∧ s.b.isRoot n = false ∧ (s.b.slot n).screed = false ∧ (s.b.slot n).readyUp ∧ (s.b.slot n).expUp = false ∧ s.b.resendDue n 0) ∧
    (∃ (s : State) (n : Nat), hasSlot n ∧ s.b.serving .sw ∧ s.b.sw.waiting = [] ∧ s.b.slotState n = 2 ∧ s.b.isRoot n ∧ 0 < s.b.lowOf n ∧ (s.b.slot n).doneAt = none ∧ s.b.resendDue n 2) ∧
    (∃ (s : State) (c : ChunkRef) (x : Block), ∃ leg, s.b.serving .sw ∧ c.slot < 1024 ∧ s.b.findBlock c.slot c.chunk = some x ∧ s.b.slotState c.slot = 2 ∧ s.b.legValid c.slot leg ∧ s.b.legChild c.slot leg = false ∧ (Blk.legRec x leg).frags.get 0 0 ≠ 0 ∧ (Blk.legRec x leg).frags.get 0 0 ≠ 2 ^ (s.b.chunkFragLast c.slot c.chunk + 1) - 1 ∧ (Blk.legRec x leg).lastAt + tResend ≤ s.b.now .sw) ∧
    (∃ (s : State) (c : ChunkRef) (x : Block), ∃ leg, s.b.serving .sw ∧ c.slot < 1024 ∧ s.b.findBlock c.slot c.chunk = some x ∧ s.b.slotState c.slot = 2 ∧ x.result = none ∧ s.b.legValid c.slot leg ∧ s.b.legChild c.slot leg ∧ (Blk.legRec x leg).frags ≠ [] ∧ s.b.legDone c.slot x leg = false ∧ (Blk.legRec x leg).lastAt + tResend ≤ s.b.now .sw) ∧
    (∃ (s : State) (c : ChunkRef) (x : Block), ∃ r, s.b.serving .sw ∧ c.slot < 1024 ∧ s.b.findBlock c.slot c.chunk = some x ∧ x.result = some r ∧ s.b.isRoot c.slot ∧ s.b.slotState c.slot = 2 ∧ r.sentAt + tResend ≤ s.b.now .sw ∧ s.b.calMay 73 (s.b.collPart c.slot)) ∧
    (∃ (s : State) (c : ChunkRef) (x : Block), s.b.serving .sw ∧ c.slot < 1024 ∧ s.b.findBlock c.slot c.chunk = some x) := by
  refine ⟨?_, ?_, ?_, ?_, ?_, ?_, ?_, ?_, ?_⟩
  · exact ⟨clS 0 2 false id, 2, by (try dsimp only) <;> decide +kernel⟩
  · exact ⟨clS 0 3 false (fun x => { x with closeAt := some 4 }), 2, 4, by (try dsimp only) <;> decide +kernel⟩
  · exact ⟨clS 0 3 false (fun x => { x with doneAt := some 4 }), 2, 4, by (try dsimp only) <;> decide +kernel⟩
  · exact ⟨clS 2 2 false (fun x => { x with readyUp := true }), 2, by (try dsimp only) <;> decide +kernel⟩
  · exact ⟨clS 0 2 false (fun x => { x with low := 1 }), 2, by (try dsimp only) <;> decide +kernel⟩
  · exact ⟨clS 1 2 false (fun s => { scr s with blocks := [{ blk1 with chunk := 0, legs := [(0, legX)] }] }), { slot := 2, chunk := 0 }, { blk1 with chunk := 0, legs := [(0, legX)] }, 0, by (try dsimp only) <;> decide +kernel⟩
  · exact ⟨clS 2 2 false (fun s => { scr s with blocks := [{ blk1 with legs := [(0, { legX with frags := [(0, 2)] })] }] }), { slot := 2, chunk := 1 }, { blk1 with legs := [(0, { legX with frags := [(0, 2)] })] }, 0, by (try dsimp only) <;> decide +kernel⟩
  · exact ⟨clS 0 2 false (fun s => { scr s with acks := [(1, [1])], blocks := [{ blk1 with result := some retX }] }), { slot := 2, chunk := 1 }, { blk1 with result := some retX }, retX, by (try dsimp only) <;> decide +kernel⟩
  · exact ⟨clS 0 2 false (fun s => { scr s with blocks := [blk1] }), { slot := 2, chunk := 1 }, blk1, by (try dsimp only) <;> decide +kernel⟩

/-- States and operands that meet the hypotheses of MembersComplete, clause by clause. -/
theorem witness_MembersComplete :
    (∃ (s : State) (n : Nat) (d : ProgDesc) (rest : List ProgDesc), HeadReady s n d rest ∧ d.type = 4 ∧ Blk.contribOk d ∧ s.b.tallyOk n d ∧ s.b.collPlaneOk n d.planeNo ∧ s.b.collOf n d = none ∧ d.firstChunk = 0 ∧ s.b.ep.colls.length < 256 ∧ s.b.findColl s.b.ep.nextColl = none) ∧
    (∃ (s : State) (port : Nat) (p : Packet) (x : CollEnt), MemberTaken s.b port p 0x25 3 true x ∧ x.params = none ∧ s.b.running x = none) ∧
    (∃ (s : State) (port : Nat) (p : Packet) (x : CollEnt), let pr := State.joinReplyParams p; ∃ d, MemberTaken s.b port p 0x25 3 true x ∧ x.params = none ∧ s.b.running x = some d ∧ x.fits pr d.firstChunk d.length ∧ pr.exp = false) ∧
    (∃ (s : State) (port : Nat) (p : Packet) (x : CollEnt), let pr := State.joinReplyParams p; ∃ d, MemberTaken s.b port p 0x25 3 true x ∧ x.params = none ∧ s.b.running x = some d ∧ x.fits pr d.firstChunk d.length = false) ∧
    (∃ (s : State) (port : Nat) (p : Packet) (x : CollEnt), MemberTaken s.b port p 0x26 4 true x) ∧
    (∃ (s : State) (port : Nat) (p : Packet) (x : CollEnt), MemberTaken s.b port p 0x23 0 false x ∧ x.screed = none ∧ s.b.running x = none) ∧
    (∃ (s : State) (port : Nat) (p : Packet) (x : CollEnt), let dt := leAt p.payload 3 1; ∃ d, MemberTaken s.b port p 0x23 0 false x ∧ x.screed = none ∧ s.b.running x = some d ∧ d.dtype = dt) ∧
    (∃ (s : State) (port : Nat) (p : Packet) (x : CollEnt), let dt := leAt p.payload 3 1; ∃ d, MemberTaken s.b port p 0x23 0 false x ∧ x.screed = none ∧ s.b.running x = some d ∧ d.dtype ≠ dt) ∧
    (∃ (s : State) (port : Nat) (p : Packet) (x : CollEnt), let c := Packet.chunk p; ∃ pr, ∃ q, ∃ w, ∃ dt, ∃ d, MemberTaken s.b port p 0x27 1 true x ∧ x.params = some pr ∧ x.screed = some (q, w, dt) ∧ x.descOf c = some d ∧ x.closed = false ∧ (x.chunk c).sent ∧ (leAt p.payload 1 1 ≠ 0 ∨ (x.chunk c).status = none) ∧ s.b.ctxState x.ctx < 2) ∧
    (∃ (s : State) (port : Nat) (p : Packet) (x : CollEnt), let nb := ((s.b.owe .ep port (Packet.tc p) (Packet.slots p)).noteKey .ep (Packet.part p) (Packet.keyGen p)).updColl x.id (fun y => { y with lastPkt := s.b.now .ep }); let x' := { x with lastPkt := s.b.now .ep }; let c := Packet.chunk p; ∃ pr, ∃ q, ∃ w, ∃ dt, ∃ d, let mask := beNat (slice p.payload 16 8); MemberTaken s.b port p 0x27 1 true x ∧ x.params = some pr ∧ x.screed = some (q, w, dt) ∧ x.descOf c = some d ∧ x.closed = false ∧ (x.chunk c).sent ∧ (leAt p.payload 1 1 ≠ 0 ∨ (x.chunk c).status = none) ∧ 2 ≤ s.b.ctxState x.ctx ∧ s.b.ctxState x.ctx ≤ 5 ∧ (s.b.pidKey .ep (s.b.ctxPart x.ctx)).cur.isSome ∧ State.reconWaits nb x' pr d c mask = none) ∧
    (∃ (s : State) (port : Nat) (p : Packet) (x : CollEnt), let c := Packet.chunk p; ∃ pr, ∃ d, MemberTaken s.b port p 0x24 0 (Packet.dst p != 16383) x ∧ x.params = some pr ∧ x.descOf c = some d ∧ (x.chunk c).status.isSome) ∧
    (∃ (s : State) (port : Nat) (p : Packet) (x : CollEnt), let c := Packet.chunk p; ∃ pr, ∃ d, MemberTaken s.b port p 0x24 0 (Packet.dst p != 16383) x ∧ x.params = some pr ∧ x.descOf c = some d ∧ (x.chunk c).status = none ∧ Packet.checkOk p ∧ Packet.tailMarked p = false ∧ Packet.collStatus p ≠ 0 ∧ Packet.collStatus p ≠ 9) ∧
    (∃ (s : State) (port : Nat) (p : Packet) (x : CollEnt), let c := Packet.chunk p; let f := Packet.frag p; ∃ pr, ∃ d, MemberTaken s.b port p 0x24 0 (Packet.dst p != 16383) x ∧ x.params = some pr ∧ x.descOf c = some d ∧ (x.chunk c).status = none ∧ Packet.checkOk p ∧ Packet.tailMarked p = false ∧ (Packet.collStatus p = 0 ∨ Packet.collStatus p = 9) ∧ f ≤ x.fragLast pr c ∧ Packet.payloadBytes p = x.fragLen pr c f ∧ bitOf (x.chunk c).mask f = false) ∧
    (∃ (s : State) (port : Nat) (p : Packet) (x : CollEnt), MemberTaken s.b port p 0x25 5 false x) ∧
    (∃ (s : State) (port : Nat) (p : Packet) (x : CollEnt), MemberTaken s.b port p 0x26 3 false x ∧ x.closed) ∧
    (∃ (s : State) (port : Nat) (p : Packet) (x : CollEnt), MemberTaken s.b port p 0x26 3 false x ∧ x.closed = false) ∧
    (∃ (s : State) (port : Nat) (p : Packet) (x : CollEnt), MemberTaken s.b port p 0x25 6 false x) ∧
    (∃ (s : State) (x : CollEnt) (pr : CollParams) (q : Int) (w dt k f : Nat) (rest : List (Nat × Nat)) (d : ProgDesc) (r : ContribRec), let at_ := State.fragAt x pr r k f; let b := (s.b.reachVa x.ctx d.ring false at_.1).reachVa x.ctx d.ring true at_.2.1; s.b.serving .ep ∧ s.b.findColl x.id = some x ∧ x.params = some pr ∧ x.screed = some (q, w, dt) ∧ x.closed = false ∧ (s.b.pidKey .ep (s.b.ctxPart x.ctx)).cur.isSome ∧ s.b.portUp .ep x.plane ∧ x.recon = [] ∧ s.b.running x = some d ∧ x.toSend = (k, f) :: rest ∧ f = x.fragLast pr k ∧ s.b.ctxState x.ctx = 2 ∧ (s.b.ctx x.ctx).engine.isSome ∧ (s.b.ctx x.ctx).faulted = none ∧ x.descOf k = some r ∧ State.fragNeeds b x pr r (b.descAt x.ctx d.ring) k f = .inl none) ∧
    (∃ (s : State) (x : CollEnt) (pr : CollParams) (c : Nat), s.b.serving .ep ∧ s.b.findColl x.id = some x ∧ x.params = some pr ∧ (x.chunk c).status = none ∧ (x.chunk c).nackFrom.isSome ∧ (x.chunk c).held = [] ∧ (x.chunk c).mask = 2 ^ (x.fragLast pr c + 1) - 1 ∧ (∀ k ∈ (x.chunk c).writes, ∀ y ∈ s.b.ep.home.pend, y.id ≠ k.1)) ∧
    (∃ (s : State) (x : CollEnt) (pr : CollParams) (c : Nat), ∃ t0, s.b.serving .ep ∧ s.b.findColl x.id = some x ∧ x.params = some pr ∧ (x.chunk c).status = none ∧ (x.chunk c).nackFrom.isSome ∧ (x.chunk c).held = [] ∧ (x.chunk c).nackFrom = some t0 ∧ (x.chunk c).mask < 2 ^ (x.fragLast pr c + 1) - 1 ∧ t0 + tResend ≤ s.b.now .ep) ∧
    (∃ (s : State) (x : CollEnt) (pr : CollParams), s.b.serving .ep ∧ s.b.findColl x.id = some x ∧ x.params = some pr ∧ x.lastPkt + 400000 * pr.timeout ≤ s.b.now .ep) ∧
    (∃ (s : State) (x : CollEnt), s.b.serving .ep ∧ s.b.findColl x.id = some x ∧ x.params = none ∧ x.closed = false ∧ x.resendAt + tResend ≤ s.b.now .ep) := by
  refine ⟨?_, ?_, ?_, ?_, ?_, ?_, ?_, ?_, ?_, ?_, ?_, ?_, ?_, ?_, ?_, ?_, ?_, ?_, ?_, ?_, ?_, ?_⟩
  · exact ⟨on (progS { cd4 with begun := false }) (fun b => b), 3, { cd4 with begun := false }, [], by (try dsimp only) <;> decide +kernel⟩
  · exact ⟨meS (ce0) [], 1, jrp, ce0, by (try dsimp only) <;> decide +kernel⟩
  · exact ⟨meS (ce0) [cd4], 1, jrp, ce0, cd4, by (try dsimp only) <;> decide +kernel⟩
  · exact ⟨meS (ce0) [cd4], 1, jrpBad, ce0, cd4, by (try dsimp only) <;> decide +kernel⟩
  · exact ⟨meS (ce0) [cd4], 1, mctl 0x26 4 0xD 0 [] [], ce0, by (try dsimp only) <;> decide +kernel⟩
  · exact ⟨meS ({ ce0 with params := some prm }) [], 1, mscr 0, { ce0 with params := some prm }, by (try dsimp only) <;> decide +kernel⟩
  · exact ⟨meS ({ ce0 with params := some prm }) [cd4], 1, mscr 0, { ce0 with params := some prm }, cd4, by (try dsimp only) <;> decide +kernel⟩
  · exact ⟨meS ({ ce0 with params := some prm }) [cd4], 1, mscr 1, { ce0 with params := some prm }, cd4, by (try dsimp only) <;> decide +kernel⟩
  · exact ⟨on (meS ({ ce1 with chunks := [(0, ch0)] }) [cd4]) (fun b => b.setCtxState 3 1), 1, mctl 0x27 1 1 0 [] (beBytes 8 1), { ce1 with chunks := [(0, ch0)] }, prm, -16, 128, 0, crec, by (try dsimp only) <;> decide +kernel⟩
  · exact ⟨meS ({ ce1 with chunks := [(0, ch0)] }) [cd4], 1, mctl 0x27 1 1 0 [] (beBytes 8 1), { ce1 with chunks := [(0, ch0)] }, prm, -16, 128, 0, crec, by (try dsimp only) <;> decide +kernel⟩
  · exact ⟨meS ({ ce1 with chunks := [(0, { ch0 with status := some 0 })] }) [], 1, res 0, { ce1 with chunks := [(0, { ch0 with status := some 0 })] }, prm, crec, by (try dsimp only) <;> decide +kernel⟩
  · exact ⟨meS ({ ce1 with chunks := [(0, ch0)] }) [], 1, res 0xA, { ce1 with chunks := [(0, ch0)] }, prm, crec, by (try dsimp only) <;> decide +kernel⟩
  · exact ⟨meS ({ ce1 with chunks := [(0, ch0)] }) [], 1, res 9, { ce1 with chunks := [(0, ch0)] }, prm, crec, by (try dsimp only) <;> decide +kernel⟩
  · exact ⟨meS ({ ce1 with chunks := [(0, { ch0 with status := some 0 })] }) [], 1, mctl 0x25 5 0 1 [] [], { ce1 with chunks := [(0, { ch0 with status := some 0 })] }, by (try dsimp only) <;> decide +kernel⟩
  · exact ⟨meS ({ ce1 with closed := true }) [], 1, mctl 0x26 3 0 0 [] [], { ce1 with closed := true }, by (try dsimp only) <;> decide +kernel⟩
  · exact ⟨meS (ce1) [], 1, mctl 0x26 3 0 0 [] (zeros 15 ++ [1#8]), ce1, by (try dsimp only) <;> decide +kernel⟩
  · exact ⟨meS (ce1) [], 1, mctl 0x25 6 0 0 [] [], ce1, by (try dsimp only) <;> decide +kernel⟩
  · exact ⟨meS { ce1 with toSend := [(0, 0)] } [cd4], { ce1 with toSend := [(0, 0)] }, prm, -16, 128, 0, 0, 0, [], cd4, crec, by (try dsimp only) <;> decide +kernel⟩
  · exact ⟨meS { ce1 with chunks := [(0, { ch0 with nackFrom := some 5, mask := 1, carried := 9 })] } [cd4], { ce1 with chunks := [(0, { ch0 with nackFrom := some 5, mask := 1, carried := 9 })] }, prm, 0, by (try dsimp only) <;> decide +kernel⟩
  · exact ⟨meS { ce1 with chunks := [(0, { ch0 with nackFrom := some 5, nacks := 3 })] } [cd4], { ce1 with chunks := [(0, { ch0 with nackFrom := some 5, nacks := 3 })] }, prm, 0, 5, by (try dsimp only) <;> decide +kernel⟩
  · exact ⟨meS ce1 [cd4], ce1, prm, by (try dsimp only) <;> decide +kernel⟩
  · exact ⟨meS ce0 [cd4], ce0, by (try dsimp only) <;> decide +kernel⟩

/-- States and operands that meet the hypotheses of DoorbellRange, clause by clause. -/
theorem witness_DoorbellRange :
    (∃ (s : State) (n v : Nat) (d : CtxDesc), hasCtx n ∧ Served s.b .ep ∧ (s.b.ctx n).desc = some d ∧ v < 2 ^ 32 ∧ d.ringSlots < (v + 2 ^ 32 - s.b.consOf n) % 2 ^ 32) ∧
    (∃ (s : State) (n v : Nat) (d : CtxDesc), hasCtx n ∧ Served s.b .ep ∧ (s.b.ctx n).desc = some d ∧ v < 2 ^ 32 ∧ (v + 2 ^ 32 - s.b.consOf n) % 2 ^ 32 ≤ d.ringSlots) := by
  refine ⟨?_, ?_⟩
  · exact ⟨dS, 3, 4 + 2^14 + 1, ctxDesc, by (try dsimp only) <;> decide +kernel⟩
  · exact ⟨dS, 3, 4 + 2^14, ctxDesc, by (try dsimp only) <;> decide +kernel⟩

/-- States and operands that meet the hypotheses of TallyRules, clause by clause. -/
theorem witness_TallyRules :
    (∃ (s : State) (n v : Nat), hasTally n ∧ Served s.b .ep ∧ s.b.tallyValid n = false ∧ bitOf v 63) ∧
    (∃ (s : State) (n v : Nat), hasTally n ∧ Served s.b .ep ∧ s.b.tallyValid n) ∧
    (∃ (s : State) (n x : Nat), hasTally n ∧ Served s.b .ep ∧ x < 2 ^ 32) ∧
    (∃ (b : Blk) (n k st : Nat), n < 4096 ∧ st < 16 ∧ b.tallyValid n) ∧
    (∃ (b : Blk) (n k st : Nat), n < 4096 ∧ st < 16 ∧ b.tallyValid n = false) := by
  refine ⟨?_, ?_, ?_, ?_, ?_⟩
  · exact ⟨ctxS, 4095, 2^63 + 1023 * 2^45 + 3, by (try dsimp only) <;> decide +kernel⟩
  · exact ⟨tallyS, 7, 0, by (try dsimp only) <;> decide +kernel⟩
  · exact ⟨tallyS, 7, 5, by (try dsimp only) <;> decide +kernel⟩
  · exact ⟨tallyS.b, 7, 895, 15, by (try dsimp only) <;> decide +kernel⟩
  · exact ⟨tallyS.b, 8, 895, 15, by (try dsimp only) <;> decide +kernel⟩

/-- States and operands that meet the hypotheses of EmptyQueueIdles, clause by clause. -/
theorem witness_EmptyQueueIdles :
    (∃ (s : State), s.pending = []) := by
  exact ⟨rtS, by (try dsimp only) <;> decide +kernel⟩

/-- States and operands that meet the hypotheses of WellFormedCommandsGoOn, clause by clause. -/
theorem witness_WellFormedCommandsGoOn :
    (∃ (s : State) (i : Instr), i.wellFormed) ∧
    (∃ (s : State) (i : Instr), i.wellFormed = false) := by
  refine ⟨?_, ?_⟩
  · exact ⟨rtS, Instr.timeSyncTimer .ep, by (try dsimp only) <;> decide +kernel⟩
  · exact ⟨rtS, Instr.waitMet 1024, by (try dsimp only) <;> decide +kernel⟩

/-- States and operands that meet the hypotheses of DataFlitAccepted, clause by clause. -/
theorem witness_DataFlitAccepted :
    (∃ (s : State) (d : Dev) (port : Nat) (f : Flit), hasPort d port ∧ s.b.portUp d port) := by
  exact ⟨upS, .sw, 3, dataFlit, by (try dsimp only) <;> decide +kernel⟩

/-- States and operands that meet the hypotheses of PortCommandRefused, clause by clause. -/
theorem witness_PortCommandRefused :
    (∃ (s : State) (d : Dev) (port : Nat), let st := s.b.lstate d port; hasPort d port ∧ Served s.b d ∧ (st = 0 ∨ st = 4 ∨ st = 5)) ∧
    (∃ (s : State) (d : Dev) (port : Nat), let st := s.b.lstate d port; hasPort d port ∧ Served s.b d ∧ (st = 4 ∨ st = 5)) ∧
    (∃ (s : State) (d : Dev) (port : Nat), let st := s.b.lstate d port; hasPort d port ∧ Served s.b d ∧ st = 5) ∧
    (∃ (s : State) (d : Dev) (port : Nat), hasPort d port ∧ Served s.b d) := by
  refine ⟨?_, ?_, ?_, ?_⟩
  · exact ⟨retS, .sw, 3, by (try dsimp only) <;> decide +kernel⟩
  · exact ⟨patS, .sw, 3, by (try dsimp only) <;> decide +kernel⟩
  · exact ⟨patS, .sw, 3, by (try dsimp only) <;> decide +kernel⟩
  · exact ⟨patS, .sw, 3, by (try dsimp only) <;> decide +kernel⟩

/-- States and operands that meet the hypotheses of EndPointHomeMemory, clause by clause. -/
theorem witness_EndPointHomeMemory :
    (∃ (s : State) (port : Nat) (p : Packet) (ecc : Ecc), HomeCarries s .ep port p (s.b.windowOk .ep p) (Packet.formOk p) ∧ ecc.ue = [] ∧ s.b.ep.badMem = [] ∧ Packet.opcode p = 0x1) ∧
    (∃ (s : State) (port : Nat) (p : Packet) (ecc : Ecc), HomeCarries s .ep port p (s.b.windowOk .ep p) (Packet.formOk p) ∧ ecc.ue = [] ∧ s.b.ep.badMem = [] ∧ Packet.opcode p = 0x2) ∧
    (∃ (s : State) (port : Nat) (p : Packet) (ecc : Ecc), HomeCarries s .ep port p (s.b.windowOk .ep p) (Packet.formOk p) ∧ ecc.ue = [] ∧ s.b.ep.badMem = [] ∧ Packet.opcode p = 0x4) ∧
    (∃ (s : State) (port : Nat) (p : Packet) (ecc : Ecc), HomeCarries s .ep port p (s.b.windowOk .ep p) (Packet.formOk p) ∧ ecc.ue = [] ∧ s.b.ep.badMem = [] ∧ Packet.opcode p = 0x5) ∧
    (∃ (s : State) (port : Nat) (p : Packet) (ecc : Ecc), HomeCarries s .ep port p (s.b.windowOk .ep p) (Packet.formOk p) ∧ ecc.ue = [] ∧ s.b.ep.badMem = [] ∧ Packet.opcode p = 0x6) ∧
    (∃ (s : State) (port : Nat) (p : Packet) (ecc : Ecc), HomeCarries s .ep port p (s.b.windowOk .ep p) (Packet.formOk p) ∧ ecc.ue = [] ∧ s.b.ep.badMem = [] ∧ Packet.opcode p = 0x7) ∧
    (∃ (s : State) (port : Nat) (p : Packet) (ecc : Ecc), HomeCarries s .ep port p (s.b.windowOk .ep p) (Packet.formOk p) ∧ ecc.ue = [] ∧ s.b.ep.badMem = [] ∧ Packet.opcode p = 0x8) ∧
    (∃ (s : State) (port : Nat) (p : Packet) (ecc : Ecc), HomeCarries s .ep port p (s.b.windowOk .ep p) (Packet.formOk p) ∧ ecc.ue = [] ∧ s.b.ep.badMem = [] ∧ Packet.opcode p = 0x9) ∧
    (∃ (s : State) (port : Nat) (p : Packet) (ecc : Ecc), HomeCarries s .ep port p (s.b.windowOk .ep p) (Packet.formOk p) ∧ ecc.ue = [] ∧ s.b.ep.badMem = [] ∧ Packet.opcode p = 0xA) ∧
    (∃ (s : State) (port : Nat) (p : Packet) (ecc : Ecc), HomeCarries s .ep port p (s.b.windowOk .ep p) (Packet.formOk p) ∧ ecc.ue = [] ∧ s.b.ep.badMem = [] ∧ Packet.opcode p = 0xB) := by
  refine ⟨?_, ?_, ?_, ?_, ?_, ?_, ?_, ?_, ?_, ?_⟩
  · exact ⟨mem1, 1, rdP, ecc0, by (try dsimp only) <;> decide +kernel⟩
  · exact ⟨mem1, 1, rq 2 0 [1#8, 2#8, 3#8] 0x40 0, ecc0, by (try dsimp only) <;> decide +kernel⟩
  · exact ⟨mem1, 1, atP 4 2, ecc0, by (try dsimp only) <;> decide +kernel⟩
  · exact ⟨mem1, 1, atP 5 2, ecc0, by (try dsimp only) <;> decide +kernel⟩
  · exact ⟨mem1, 1, casP, ecc0, by (try dsimp only) <;> decide +kernel⟩
  · exact ⟨mem1, 1, atP 7 2, ecc0, by (try dsimp only) <;> decide +kernel⟩
  · exact ⟨mem1, 1, atP 8 2, ecc0, by (try dsimp only) <;> decide +kernel⟩
  · exact ⟨mem1, 1, atP 9 2, ecc0, by (try dsimp only) <;> decide +kernel⟩
  · exact ⟨mem1, 1, atP 10 0, ecc0, by (try dsimp only) <;> decide +kernel⟩
  · exact ⟨mem1, 1, atP 11 2, ecc0, by (try dsimp only) <;> decide +kernel⟩

/-- States and operands that meet the hypotheses of AtomicNewValues, clause by clause. -/
theorem witness_AtomicNewValues :
    (∃ (sz old opnd : Nat), ∃ q, (sz = 4 ∨ sz = 8) ∧ old < 2 ^ (8 * sz) ∧ opnd < 2 ^ (8 * sz) ∧ q < 4) ∧
    (∃ (sz old opnd : Nat), ∃ q, (sz = 4 ∨ sz = 8) ∧ old < 2 ^ (8 * sz) ∧ opnd < 2 ^ (8 * sz) ∧ (q = 2 ∨ q = 3)) ∧
    (∃ (sz old opnd : Nat), ∃ q, (sz = 4 ∨ sz = 8) ∧ old < 2 ^ (8 * sz) ∧ opnd < 2 ^ (8 * sz) ∧ (q = 0 ∨ q = 1)) ∧
    (∃ (sz old opnd : Nat), ∃ swp, (sz = 4 ∨ sz = 8) ∧ old < 2 ^ (8 * sz) ∧ opnd < 2 ^ (8 * sz) ∧ swp < 2 ^ 64 ∧ sz = 8) := by
  refine ⟨?_, ?_, ?_, ?_⟩
  · exact ⟨4, 2^32 - 1, 5, 3, by (try dsimp only) <;> decide +kernel⟩
  · exact ⟨8, 2^64 - 1, 5, 2, by (try dsimp only) <;> decide +kernel⟩
  · exact ⟨8, 2^64 - 1, 5, 0, by (try dsimp only) <;> decide +kernel⟩
  · exact ⟨8, 5, 5, 2^64 - 1, by (try dsimp only) <;> decide +kernel⟩

/-- States and operands that meet the hypotheses of Fp32AddRules, clause by clause. -/
theorem witness_Fp32AddRules :
    (∃ x, ∃ y, x < 2 ^ 32 ∧ y < 2 ^ 32) ∧
    (∃ x, bits x 30 23 = 255 ∧ bits x 22 0 ≠ 0) ∧
    (∃ x, ∃ y, bits x 30 0 = 0x7F800000 ∧ (bits y 30 23 ≠ 255 ∨ y = x)) ∧
    (∃ x, ∃ y, bits x 30 23 ≠ 255 ∧ bits y 30 23 ≠ 255 ∧ fp32Units x + fp32Units y = 0) ∧
    (∃ x, ∃ y, bits x 30 23 ≠ 255 ∧ bits y 30 23 ≠ 255 ∧ fp32Units x + fp32Units y ≠ 0) ∧
    (∃ (neg : Bool) (v : Nat), (2 ^ 25 - 1) * 2 ^ 252 ≤ v) ∧
    (∃ (neg : Bool) (v : Nat), ∃ z, v < (2 ^ 25 - 1) * 2 ^ 252 ∧ bits z 30 23 ≠ 255 ∧ (fp32Units (fp32Round neg v) - (if neg then -(v : Int) else (v : Int))).natAbs = (fp32Units z - (if neg then -(v : Int) else (v : Int))).natAbs) ∧
    (∃ (neg : Bool) (v : Nat), ∃ z, v < (2 ^ 25 - 1) * 2 ^ 252 ∧ bits z 30 23 ≠ 255) ∧
    (∃ (neg : Bool) (v : Nat), v < (2 ^ 25 - 1) * 2 ^ 252) := by
  refine ⟨?_, ?_, ?_, ?_, ?_, ?_, ?_, ?_, ?_⟩
  · exact ⟨0x3F800001, 0x7F7FFFFF, by (try dsimp only) <;> decide +kernel⟩
  · exact ⟨0x7F800001, by (try dsimp only) <;> decide +kernel⟩
  · exact ⟨0xFF800000, 0xFF7FFFFF, by (try dsimp only) <;> decide +kernel⟩
  · exact ⟨0xBF800000, 0x3F800000, by (try dsimp only) <;> decide +kernel⟩
  · exact ⟨0xBF800001, 0x3F800000, by (try dsimp only) <;> decide +kernel⟩
  · exact ⟨true, (2^25 - 1) * 2^252, by (try dsimp only) <;> decide +kernel⟩
  · exact ⟨false, 2^24 + 1, 0x01000001, by (try dsimp only) <;> decide +kernel⟩
  · exact ⟨true, (2^25 - 1) * 2^252 - 1, 0xFF7FFFFF, by (try dsimp only) <;> decide +kernel⟩
  · exact ⟨true, 0, by (try dsimp only) <;> decide +kernel⟩

/-- States and operands that meet the hypotheses of TopcoatWritesFlag, clause by clause. -/
theorem witness_TopcoatWritesFlag :
    (∃ (s : State) (port : Nat) (p : Packet) (ecc : Ecc), HomeCarries s .ep port p (s.b.windowOk .ep p) (Packet.formOk p) ∧ Packet.opcode p = 3 ∧ ecc.ue = [] ∧ s.b.ep.badMem = [] ∧ s.b.ep.home.held = [] ∧ s.b.ep.home.streams.any (fun r => r.key = Packet.stream p) = false ∧ beNat (slice p.payload 0 2) = Packet.seq p) ∧
    (∃ (s : State) (x : PendAns) (off w : Nat) (bytes : List Byte), s.b.ep.home.pend = [x] ∧ x.ucie ∧ x.own = none ∧ x.isLocal = false ∧ x.hop = .write off bytes true ∧ s.b.ep.badMem = [] ∧ s.b.ep.home.held = [] ∧ s.b.ep.home.waiting = [] ∧ s.b.ep.home.streams = [{ key := x.key, w := some w, applied := [] }] ∧ x.seq = (w + 1) % 65536) := by
  refine ⟨?_, ?_⟩
  · exact ⟨mem1, 1, topP, ecc0, by (try dsimp only) <;> decide +kernel⟩
  · exact ⟨topA, topX, 64, 3, [1#8, 2#8, 3#8, 4#8], by (try dsimp only) <;> decide +kernel⟩

/-- States and operands that meet the hypotheses of TopcoatHeld, clause by clause. -/
theorem witness_TopcoatHeld :
    (∃ (s : State) (port : Nat) (p : Packet) (ecc : Ecc), HomeCarries s .ep port p (s.b.windowOk .ep p) (Packet.formOk p) ∧ Packet.opcode p = 3 ∧ s.b.ep.home.held = [] ∧ s.b.ep.home.streams.any (fun r => r.key = Packet.stream p) = false ∧ beNat (slice p.payload 0 2) ≠ Packet.seq p) := by
  exact ⟨mem1, 1, topLate, ecc0, by (try dsimp only) <;> decide +kernel⟩

/-- States and operands that meet the hypotheses of TableEntryRefused, clause by clause. -/
theorem witness_TableEntryRefused :
    (∃ (s : State) (n v : Nat), hasIsland n ∧ Served s.b .ep ∧ s.b.islandValid n = false ∧ bitOf v 63 ∧ s.b.ep.home.waiting = [] ∧ (bits v 13 0 = 16383 ∨ bits v 13 0 = s.b.ep.node ∨ ∃ m, m < 3 ∧ m ≠ n ∧ s.b.islandValid m ∧ s.b.islandNode m = bits v 13 0)) ∧
    (∃ (s : State) (v : Nat), Served s.b .ep ∧ bitOf v 31) := by
  refine ⟨?_, ?_⟩
  · exact ⟨snS, 0, 2^63 + 12, by (try dsimp only) <;> decide +kernel⟩
  · exact ⟨snS, 2^31 + 3, by (try dsimp only) <;> decide +kernel⟩

/-- States and operands that meet the hypotheses of AcquireInvalidates, clause by clause. -/
theorem witness_AcquireInvalidates :
    (∃ (s : State) (n eng : Nat) (scope : Scope) (range : AcqRange), hasCtx n ∧ s.b.serving .ep ∧ s.b.accepts n ∧ scope ≠ .engine ∧ rangeOk range ∧ s.b.relsOf n eng = []) := by
  exact ⟨fcS, 3, 2, .fabric, .block (2^44*12) 7, by (try dsimp only) <;> decide +kernel⟩

/-- States and operands that meet the hypotheses of DirectAccessRefused, clause by clause. -/
theorem witness_DirectAccessRefused :
    (∃ (s : State) (n eng va size : Nat) (bad : Bool), hasCtx n ∧ s.b.serving .ep ∧ s.b.ctxState n < 2) ∧
    (∃ (s : State) (n eng va size : Nat) (bad : Bool), hasCtx n ∧ s.b.serving .ep ∧ s.b.accepts n ∧ (directSize size = false ∨ va % size ≠ 0)) ∧
    (∃ (s : State) (n eng va size : Nat) (bad : Bool), hasCtx n ∧ s.b.serving .ep ∧ 6 ≤ s.b.ctxState n ∧ directSize size ∧ va % size = 0) := by
  refine ⟨?_, ?_, ?_⟩
  · exact ⟨onC (fun b => b.setCtxState 3 1), 3, 2, 64, 4, false, by (try dsimp only) <;> decide +kernel⟩
  · exact ⟨ctxS, 3, 2, 64, 3, false, by (try dsimp only) <;> decide +kernel⟩
  · exact ⟨onC (fun b => b.setCtxState 3 7), 3, 2, 64, 4, false, by (try dsimp only) <;> decide +kernel⟩

/-- States and operands that meet the hypotheses of QuotaZeroUnsupported, clause by clause. -/
theorem witness_QuotaZeroUnsupported :
    (∃ (s : State) (r : Req) (t : Nat) (ecc : Ecc) (bad : Bool) (d : CtxDesc), ∃ eng, ∃ skip, ∃ size, ∃ fill, hasTag t ∧ s.b.serving .ep ∧ s.b.ep.reqs = [r] ∧ r.sent = false ∧ s.b.mayIssue r ∧ r.feeds = [] ∧ s.b.ep.rels = [] ∧ r.va = none ∧ s.b.ep.fc = [] ∧ (s.b.ctx r.ctx).desc = some d ∧ d.tagQuota = 0 ∧ s.b.granted r.ctx r.node r.off r.span ∧ r.off + r.span ≤ 2 ^ 44 ∧ r.op = 1 ∧ r.why = .load eng skip size fill) ∧
    (∃ (s : State) (r : Req) (t : Nat) (ecc : Ecc) (bad : Bool) (d : CtxDesc), ∃ eng, ∃ scope, ∃ range, hasTag t ∧ s.b.serving .ep ∧ s.b.ep.reqs = [r] ∧ r.sent = false ∧ s.b.mayIssue r ∧ r.feeds = [] ∧ s.b.ep.rels = [] ∧ r.va = none ∧ s.b.ep.fc = [] ∧ (s.b.ctx r.ctx).desc = some d ∧ d.tagQuota = 0 ∧ s.b.granted r.ctx r.node r.off r.span ∧ r.off + r.span ≤ 2 ^ 44 ∧ r.op = 1 ∧ r.why = .acqLoad eng scope range) ∧
    (∃ (s : State) (r : Req) (t : Nat) (ecc : Ecc) (bad : Bool) (d : CtxDesc), ∃ eng, hasTag t ∧ s.b.serving .ep ∧ s.b.ep.reqs = [r] ∧ r.sent = false ∧ s.b.mayIssue r ∧ r.feeds = [] ∧ s.b.ep.rels = [] ∧ r.va = none ∧ s.b.ep.fc = [] ∧ (s.b.ctx r.ctx).desc = some d ∧ d.tagQuota = 0 ∧ s.b.granted r.ctx r.node r.off r.span ∧ r.off + r.span ≤ 2 ^ 44 ∧ 4 ≤ r.op ∧ r.op ≤ 0xB ∧ (r.why = .atomic eng ∨ r.why = .relAtomic eng)) ∧
    (∃ (s : State) (r w : Req) (t : Nat) (ecc : Ecc) (bad : Bool) (d : CtxDesc) (ring wid skip : Nat), hasTag t ∧ s.b.serving .ep ∧ s.b.ep.reqs = [r, w] ∧ r.sent = false ∧ s.b.mayIssue r ∧ r.feeds = [] ∧ r.va = none ∧ r.why = .copyRead ring wid skip ∧ r.op = 1 ∧ r.node ≠ s.b.ep.node ∧ (s.b.ctx r.ctx).desc = some d ∧ d.tagQuota = 0 ∧ s.b.granted r.ctx r.node r.off r.span ∧ r.off + r.span ≤ 2 ^ 44 ∧ w.id ≠ r.id ∧ w.sent = false ∧ w.ctx = r.ctx ∧ w.why = .prog ring ∧ w.feeds = [r.id]) := by
  refine ⟨?_, ?_, ?_, ?_⟩
  · exact ⟨qS l0, l0, 1, ecc0, false, { ctxDesc with tagQuota := 0 }, 2, 4, 8, false, by (try dsimp only) <;> decide +kernel⟩
  · exact ⟨qS { l0 with why := .acqLoad 2 .chip .all }, { l0 with why := .acqLoad 2 .chip .all }, 1, ecc0, false, { ctxDesc with tagQuota := 0 }, 2, Scope.chip, AcqRange.all, by (try dsimp only) <;> decide +kernel⟩
  · exact ⟨qS { l0 with why := .atomic 2, op := 4, payload := zeros 4 }, { l0 with why := .atomic 2, op := 4, payload := zeros 4 }, 1, ecc0, false, { ctxDesc with tagQuota := 0 }, 2, by (try dsimp only) <;> decide +kernel⟩
  · exact ⟨cqS, cr0, cw0, 1, ecc0, false, { ctxDesc with tagQuota := 0 }, 4, 8, 0, by (try dsimp only) <;> decide +kernel⟩

/-- States and operands that meet the hypotheses of CountedNeverRetried, clause by clause. -/
theorem witness_CountedNeverRetried :
    (∃ (s : State) (r : Req), ∃ eng, ∃ skip, ∃ size, ∃ fill, s.b.ep.reqs = [r] ∧ r.counted ∧ r.sent ∧ r.first + 4 * lifetime r.life ≤ s.b.now .ep ∧ r.why = .load eng skip size fill) ∧
    (∃ (s : State) (r : Req), s.b.ep.reqs = [r] ∧ r.counted ∧ r.sent ∧ r.first + 4 * lifetime r.life ≤ s.b.now .ep) ∧
    (∃ (s : State) (r : Req), s.b.ep.reqs = [r] ∧ r.counted) := by
  refine ⟨?_, ?_, ?_⟩
  · exact ⟨rqS { sentR l0 with counted := true, checkBad := true, first := 5 }, { sentR l0 with counted := true, checkBad := true, first := 5 }, 2, 4, 8, false, by (try dsimp only) <;> decide +kernel⟩
  · exact ⟨rqS { sentR l0 with counted := true, checkBad := true, first := 5 }, { sentR l0 with counted := true, checkBad := true, first := 5 }, by (try dsimp only) <;> decide +kernel⟩
  · exact ⟨rqS { sentR w0 with counted := true }, { sentR w0 with counted := true }, by (try dsimp only) <;> decide +kernel⟩

/-- States and operands that meet the hypotheses of ContextCommandRefused, clause by clause. -/
theorem witness_ContextCommandRefused :
    (∃ (s : State) (n : Nat), hasCtx n ∧ Served s.b .ep ∧ s.b.ctxState n ≠ 0 ∧ s.b.ctxState n ≠ 7) ∧
    (∃ (s : State) (n : Nat), hasCtx n ∧ Served s.b .ep ∧ s.b.ctxState n ≠ 1) ∧
    (∃ (s : State) (n : Nat), hasCtx n ∧ Served s.b .ep ∧ s.b.ctxState n ≠ 2 ∧ s.b.ctxState n ≠ 4) ∧
    (∃ (s : State) (n : Nat), hasCtx n ∧ Served s.b .ep ∧ s.b.ctxState n ≠ 2 ∧ s.b.ctxState n ≠ 3 ∧ s.b.ctxState n ≠ 4) ∧
    (∃ (s : State) (n : Nat), hasCtx n ∧ Served s.b .ep ∧ s.b.ctxState n ≠ 4) ∧
    (∃ (s : State) (n : Nat), hasCtx n ∧ Served s.b .ep ∧ (s.b.ctxState n < 1 ∨ 5 < s.b.ctxState n)) ∧
    (∃ (s : State) (n : Nat), hasCtx n ∧ Served s.b .ep ∧ s.b.ctxState n ≠ 7 ∧ s.b.ctxState n ≠ 1) ∧
    (∃ (s : State) (n : Nat), hasCtx n ∧ Served s.b .ep) := by
  refine ⟨?_, ?_, ?_, ?_, ?_, ?_, ?_, ?_⟩
  · exact ⟨stS 6, 3, by (try dsimp only) <;> decide +kernel⟩
  · exact ⟨stS 0, 3, by (try dsimp only) <;> decide +kernel⟩
  · exact ⟨stS 3, 3, by (try dsimp only) <;> decide +kernel⟩
  · exact ⟨stS 1, 3, by (try dsimp only) <;> decide +kernel⟩
  · exact ⟨stS 3, 3, by (try dsimp only) <;> decide +kernel⟩
  · exact ⟨stS 6, 3, by (try dsimp only) <;> decide +kernel⟩
  · exact ⟨stS 2, 3, by (try dsimp only) <;> decide +kernel⟩
  · exact ⟨stS 3, 3, by (try dsimp only) <;> decide +kernel⟩

/-- States and operands that meet the hypotheses of CutMatchesCount, clause by clause. -/
theorem witness_CutMatchesCount :
    (∃ (d n : Nat), 0 < n) := by
  exact ⟨4090, 5000, by (try dsimp only) <;> decide +kernel⟩

/-- States and operands that meet the hypotheses of RequestRefusedAtIngress, clause by clause. -/
theorem witness_RequestRefusedAtIngress :
    (∃ (s : State) (port : Nat) (p : Packet), hasPort .sw port ∧ s.b.serving .sw ∧ s.b.portUp .sw port ∧ Packet.whole p ∧ s.b.sw.lanes.get port [] = [] ∧ Packet.hcrcOk p ∧ Packet.linkLocal p = false ∧ Packet.malformed p = false ∧ Packet.plane p = s.b.swPlane ∧ Packet.hops p ≠ 5 ∧ s.b.lateAt .sw p = false ∧ Blk.isRequest p ∧ s.b.answerFull port = false ∧ (s.b.pidAborted (Packet.part p) ∨ s.b.carries port (Packet.part p) = false)) := by
  exact ⟨rtS, 3, swP 6, by (try dsimp only) <;> decide +kernel⟩

/-- States and operands that meet the hypotheses of Bar2Refused, clause by clause. -/
theorem witness_Bar2Refused :
    (∃ (s : State) (off : Nat) (bytes : List Byte) (ecc : Ecc), s.b.inRun .sw ∧ s.bar2Waits off bytes.length = false ∧ (s.b.flag .sw offBar2Sel 63 = false ∨ s.b.partMasked (s.b.fld .sw offBar2Sel 5 0) ∨ s.b.winReady (s.b.fld .sw offBar2Sel 5 0) = false ∨ off < 64 * s.b.winFirst (s.b.fld .sw offBar2Sel 5 0) ∨ 64 * (s.b.winLast (s.b.fld .sw offBar2Sel 5 0) + 1) < off + bytes.length)) := by
  exact ⟨b2S, 2097151, [1#8, 2#8], ecc0, by (try dsimp only) <;> decide +kernel⟩

/-- States and operands that meet the hypotheses of InitLines, clause by clause. -/
theorem witness_InitLines :
    (∃ (s : State) (i l : Nat) (x : Line), x.init ∧ s.b.ueFind l = none ∧ s.b.sw.badLines = []) ∧
    (∃ (s : State) (i l : Nat) (x : Line), x.init) := by
  refine ⟨?_, ?_⟩
  · exact ⟨b2S, 0, 5, Line.unlisted, by (try dsimp only) <;> decide +kernel⟩
  · exact ⟨b2S, 0, 5, Line.unlisted, by (try dsimp only) <;> decide +kernel⟩

/-- States and operands that meet the hypotheses of FailedLoadChangesNothing, clause by clause. -/
theorem witness_FailedLoadChangesNothing :
    (∃ (s : State) (j : LathJob) (raw : List Byte) (c sect record : Nat), s.b.inRun .sw ∧ s.b.sw.lath.job = some j ∧ j.image = none ∧ s.b.inSupplyHold = false ∧ (s.b.setLathState 2).checkImage (padTo (msgArg j.msg 8 4) raw) (msgArg j.msg 8 4) = some (c, sect, record)) := by
  exact ⟨ltJS none, ltJ none, [], 0x10, 0xFF, 0, by (try dsimp only) <;> decide +kernel⟩

/-- States and operands that meet the hypotheses of SpdmRefused, clause by clause. -/
theorem witness_SpdmRefused :
    (∃ (s : State) (i : Instr) (d : Dev), spdmPart i = some d ∧ s.b.clocked d ∧ (s.b.recovery d ∨ s.b.flag d offSecState 2)) ∧
    (∃ (s : State) (i : Instr) (d : Dev), spdmPart i = some d ∧ s.b.clocked d ∧ s.b.recovery d = false ∧ s.b.flag d offSecState 2 = false ∧ s.b.flag d offSecState 3 = false) ∧
    (∃ (s : State) (d : Dev), SpdmReady s.b d ∧ (s.b.spdm d).algs ∧ (s.b.core d).certOk ∧ 8 ≤ (s.b.spdm d).sessions.length) := by
  refine ⟨?_, ?_, ?_⟩
  · exact ⟨on (spS1 .sw true none) (fun b => b.setFlag .sw offSecState 2 true), .keyExchange .sw, .sw, by (try dsimp only) <;> decide +kernel⟩
  · exact ⟨on (spS1 .sw true none) (fun b => b.setFlag .sw offSecState 3 false), .keyExchange .sw, .sw, by (try dsimp only) <;> decide +kernel⟩
  · exact ⟨on (spS1 .sw true none) (fun b => b.modSpdm .sw (fun x => { x with sessions := [sess true none, sess true none, sess true none, sess true none, sess true none, sess true none, sess true none, sess true none] })), .sw, by (try dsimp only) <;> decide +kernel⟩

/-- States and operands that meet the hypotheses of NotBoundRefused, clause by clause. -/
theorem witness_NotBoundRefused :
    (∃ (s : State) (d : Dev) (h : GenardHead) (x : Session) (n : Nat), s.b.keyNo d (Blk.reqPart h.req) = some n ∧ (s.b.keyEnt d n).agent.isSome ∧ (s.b.keyEnt d n).agent ≠ x.agent ∧ (d = .sw → leAt (Blk.reqArgs h.req) 0 8 = 0) ∧ (d = .ep → leAt (Blk.reqArgs h.req) 0 8 < 2 ∧ leAt (Blk.reqArgs h.req) 16 64 = 0)) ∧
    (∃ (s : State) (d : Dev) (h : GenardHead) (x : Session) (n : Nat), s.b.keyNo d (Blk.reqPart h.req) = some n ∧ (s.b.keyEnt d n).agent.isSome ∧ (s.b.keyEnt d n).agent ≠ x.agent ∧ d = .sw ∧ s.b.slotOutside (leAt (Blk.reqArgs h.req) 0 2) n = false) ∧
    (∃ (s : State) (d : Dev) (h : GenardHead) (x : Session) (n : Nat), s.b.keyNo d (Blk.reqPart h.req) = some n ∧ (s.b.keyEnt d n).agent.isSome ∧ (s.b.keyEnt d n).agent ≠ x.agent ∧ d = .sw) ∧
    (∃ (s : State) (d : Dev) (h : GenardHead) (x : Session) (n : Nat), s.b.keyNo d (Blk.reqPart h.req) = some n ∧ (s.b.keyEnt d n).agent.isSome ∧ (s.b.keyEnt d n).agent ≠ x.agent ∧ d = .ep) ∧
    (∃ (s : State) (d : Dev) (h : GenardHead) (x : Session) (n : Nat), s.b.keyNo d (Blk.reqPart h.req) = some n ∧ (s.b.keyEnt d n).agent.isSome ∧ (s.b.keyEnt d n).agent ≠ x.agent) := by
  refine ⟨?_, ?_, ?_, ?_, ?_⟩
  · exact ⟨kyS { ke .new with agent := some 8 }, .ep, gh 1 (leBytes 8 1 ++ leBytes 8 3 ++ zeros 64), sess true (some agX), 5, by (try dsimp only) <;> decide +kernel⟩
  · exact ⟨kyS { ke .new with agent := some 8 }, .sw, gh 0x12 [3#8, 0#8], sess true (some agX), 0, by (try dsimp only) <;> decide +kernel⟩
  · exact ⟨kyS { ke .new with agent := some 8 }, .sw, gh 4, sess true (some agX), 0, by (try dsimp only) <;> decide +kernel⟩
  · exact ⟨kyS { ke .new with agent := some 8 }, .ep, gh 5, sess true (some agX), 5, by (try dsimp only) <;> decide +kernel⟩
  · exact ⟨kyS { ke .new with agent := some 8 }, .ep, gh 3, sess true (some agX), 5, by (try dsimp only) <;> decide +kernel⟩

/-- States and operands that meet the hypotheses of ReductionSumsRecovered, clause by clause. -/
theorem witness_ReductionSumsRecovered :
    (∃ (code : Nat) (q : Int) (l : List Elem), l.length ≤ 16384) ∧
    (∃ (dtype w : Nat) (acc : Tbl Int) (count : Nat) (e : Int) (d i : Nat), i < count ∧ satCount w (acc.get i 0) ≠ 0) ∧
    (∃ (dtype w : Nat) (acc acc' : Tbl Int) (count : Nat) (e : Int) (d : Nat), (∀ i, i < count → imageTotal w (acc.get i 0) = imageTotal w (acc'.get i 0))) := by
  refine ⟨?_, ?_, ?_⟩
  · exact ⟨2, -3, [.nan, .inf true, .fin true 5 0, .fin false 5 (-4)], by (try dsimp only) <;> decide +kernel⟩
  · exact ⟨0, 128, [(3, 2 ^ 144)], 4, 0, 1, 3, by (try dsimp only) <;> decide +kernel⟩
  · exact ⟨0, 128, [(3, 2 ^ 144 + 5)], [(3, 5)], 4, 0, 1, by (try dsimp only) <;> decide +kernel⟩

/-- States and operands that meet the hypotheses of ResetState, clause by clause. -/
theorem witness_ResetState :
    (∃ n, n < 1024) := by
  exact ⟨1023, by (try dsimp only) <;> decide +kernel⟩

/-! ## Well-formedness: for each check a command it refuses -/

theorem smoke_units_refused : ([
    .flitSend .sw 72, .flitSend .ep 4, .lightDetected .ep 3 9, .usePrimary .sw 20, .usePrimary .ep 1,
    .bucketDrain .sw (.tile 18), .bucketDrain .sw (.engine 72), .bucketDrain .sw (.hbmPc 192), .bucketDrain .ep (.tile 0),
    .bucketDrain .sw (.wlUcw 72 0), .engineSwitch 16 3, .engineSwitch 3 1024, .egressArbitrate 75, .calendarSlotStart 16,
    .contextRelease 1024, .tallyCfgWrite 4096 0, .dgqCfgWrite 16 0, .slotAdmit 1024, .partAbort 64, .nodeEntryWrite 16384 0,
    .islandWrite 3 0, .hwinCtlWrite 64 0, .msixUnmask .sw 64, .groupClearDone 32, .ucieRetrain 4, .mboxDataWrite .sw 8 0,
    .tagReleaseTimer 8192, .refill { src := 76, eq := 0, qset := 0, tc := 1 } ecc0, .clockLoss .sw (.pll 7),
    .readClear .sw 0x4000000 8 ecc0, .readClear .ep 0x1000000 8 ecc0] : List Instr).all (fun i => !i.wellFormed) = true := by decide

/-- The last unit of each kind is accepted. -/
theorem smoke_units_accepted : ([
    .flitSend .sw 71, .flitSend .ep 3, .lightDetected .ep 3 8, .usePrimary .sw 19, .usePrimary .ep 0,
    .bucketDrain .sw (.tile 17), .bucketDrain .sw (.engine 71), .bucketDrain .sw (.hbmPc 191),
    .engineSwitch 15 1023, .egressArbitrate 74, .calendarSlotStart 15,
    .tallyCfgWrite 4095 0, .dgqCfgWrite 15 0, .slotAdmit 1023, .partAbort 63, .nodeEntryWrite 16383 0,
    .islandWrite 2 0, .hwinCtlWrite 63 0, .msixUnmask .sw 63, .groupClearDone 31, .ucieRetrain 3, .mboxDataWrite .sw 7 0,
    .tagReleaseTimer 8191, .refill { src := 75, eq := 74, qset := 31, tc := 7 } ecc0, .clockLoss .sw (.pll 6),
    .readClear .sw 0x3FFFFF8 8 ecc0, .readClear .ep 0xFFFFF8 8 ecc0] : List Instr).all Instr.wellFormed = true := by decide

/-- An ill-formed command faults; the fault is the only stop of the model. -/
theorem test_ill_formed_faults :
    (match exec (.flitSend .sw 72) rtS with | .fault .noSuchUnit => true | _ => false) = true := by decide +kernel

/-! ## Single steps and functions, against values the spec states -/

/-- The queue is first in, first out. -/
theorem test_step_takes_front :
    Ok (step { rtS with pending := [.portEnable .sw 3 false, .ping .sw] }) (fun t => decide (t.pending = [.ping .sw])) = true := by
  decide +kernel

/-- The example under R145: 10,000 B to a destination 240 past a page start make four writes. -/
theorem test_cut_example : (cutWrites 240 10000).map (fun w => (w.2.1, w.2.2)) = [(16, false), (3840, true), (4096, true), (2048, true)] ∧
    countWrites 240 10000 = 4 := by decide +kernel

/-- The example that closes chapter 6: exponents 0, 8 and 8 with W = 128 give Q = -104. -/
theorem test_auto_screed_example : autoScreed 128 [0, 8, 8] = -104 := by decide

/-- Its images: 1.5, 256 and -256 as BF16. -/
theorem test_images_example : [0x3FC0, 0x4380, 0xC380].map (fun x => toImage (-104) 128 (decodeElem (fmtOf 1) x)) =
    [(3 * 2 ^ 103, false), (2 ^ 112, false), (-(2 ^ 112), false)] := by decide +kernel

/-- Its tags and their sum. -/
theorem test_tags_example : [3 * 2 ^ 103, 2 ^ 112, -(2 ^ 112)].map (fun x => residueTag [(0, x)]) =
    [0x00000C0000000000, 0x0008000000000000, 0x1FF7FFFFFFFFFFFF] ∧
    (0x00000C0000000000 + 0x0008000000000000 + 0x1FF7FFFFFFFFFFFF) % tagP = 0x00000C0000000000 := by decide +kernel

/-- Its result, as a sum and as a mean of three. -/
theorem test_round_out_example : roundOut (fmtOf 1) (3 * 2 ^ 103) (scaleOf 0 (-104) 0 3).1 (scaleOf 0 (-104) 0 3).2 = (0x3FC0, false) ∧
    roundOut (fmtOf 1) (3 * 2 ^ 103) (scaleOf 2 (-104) 0 3).1 (scaleOf 2 (-104) 0 3).2 = (0x3F00, false) := by decide +kernel

/-- Its partial element: bytes 12 and 13 hold 0x80 and 0x01. -/
theorem test_partial_example : partBytes [(0, 3 * 2 ^ 103)] 1 128 0 = zeros 12 ++ [0x80#8, 0x01#8] ++ zeros 6 := by decide +kernel

/-- With Q = -140 all three images saturate. -/
theorem test_saturated_example : [0x3FC0, 0x4380, 0xC380].map (fun x => (toImage (-140) 128 (decodeElem (fmtOf 1) x)).2) =
    [true, true, true] := by decide +kernel

/-- The example under R214: BF16, 128 KiB chunks, W = 192, WIN = 8 reserve 3,584 granules. -/
theorem test_reservation_example :
    let b := (rtS.b.putReg .sw (offColl 2 0) (3 * 2 ^ 3)).putReg .sw (offColl 2 8) (7 * 2 ^ 57)
    (b.putReg .sw (offColl 2 0x20) (2 ^ 12 + 2 ^ 8)).reservation 2 = 3584 := by decide +kernel

/-- The example of chapter 8: a 4,096 B write is 259 slots and 65 cells. -/
theorem test_long_write_size : Packet.slots (rq 2 0 (zeros 4096) 0x40 0) = 4 ∧
    Packet.slots (mkPacket { tc := 3, opcode := 2, part := 5, plane := 0, dst := 700, src := 0, low := 0 } true (zeros 4096)) = 259 ∧
    Packet.cells (mkPacket { tc := 3, opcode := 2, part := 5, plane := 0, dst := 700, src := 0, low := 0 } true (zeros 4096)) = 65 := by decide +kernel

/-- The hall-level lifetime, 200 µs, is 3,125 deadline units (example under R64). -/
theorem test_deadline_units : setDeadline 0 (lifetime 2) = 3125 ∧ expired 199999 3125 = false ∧ expired 200000 3125 = true := by decide

/-- Group 3 holds ports 32-63; all of them are UP and live but `down`. -/
def grpB (down : List Nat) : Blk :=
  let ports := (List.range' 32 32).map (fun n => (offPort .sw n 0, BitVec.ofNat 64 (2 * 2 ^ 60 + (if down.contains n then 0 else 2 ^ 48))))
  rtS.b.modCore .sw (fun c => { c with regs := ports ++ [(offGroup 3, BitVec.ofNat 64 (2 ^ 64 - 2 ^ 32))] })

/-- The example under R288: key 8,857 picks port 57 of 32 up-links, and port 55 once port 47 is gone. -/
theorem test_pick_example :
    let p := mkPacket { tc := 1, opcode := 2, part := 5, plane := 0, dst := 9001, src := 17, ctx := 5, seq := 0x01A4, low := 0 } false [0#8]
    (grpB []).pick p 3 = some 57 ∧ (grpB [47]).pick p 3 = some 55 := by decide +kernel

/-- The example under R433: wavelengths 0, 2, 3, 4, 6, 7 and 8 are usable, so 0, 2, 3 and 4 carry the stripes. -/
theorem test_width_example :
    let b := (rtS.b.setWl .sw 3 1 3 0).setWl .sw 3 5 3 0
    let b := b.modPort .sw 3 (fun p => { p with gotNode := true, gotPort := true, gotMap := true, qualified := 0x1FF, partnerMap := 0x1FF })
    (upto 9).map (fun w => ((b.chooseWidth .sw 3).wlRole .sw 3 w)) = [1, 3, 1, 1, 1, 3, 2, 2, 2] := by decide +kernel

/-- FP32 addition of R104 to the nearest, ties to even: 2^24 and 1 give 2^24; 1 and 1 give 2. -/
theorem test_fp32_add : fp32Add 0x4B800000 0x3F800000 = 0x4B800000 ∧ fp32Add 0x3F800000 0x3F800000 = 0x40000000 := by decide +kernel

/-- Markers of R405: SYNC of lanes 0 and 8, and a changed bit is found. -/
theorem test_marker : bits (Blk.markerWord 0 15 4 0x8004 3) 119 64 = 0xA5A5A5A5A5A5A5 ∧ bits (Blk.markerWord 8 15 4 0x8004 3) 119 64 = 0xADADADADADADAD ∧
    Blk.markerOk (Blk.markerWord 8 15 4 0x8004 3) = true ∧ Blk.markerOk (Blk.markerWord 8 15 4 0x8004 3 ^^^ 2 ^ 40) = false := by decide +kernel

/-- Pins at reset and in service (R516). -/
theorem test_pins : (State.reset.b.pinRdyBsy .sw, State.reset.b.pinAlert .sw, State.reset.b.pinModulators .sw 3) = (false, false, false) ∧
    (upS.b.pinRdyBsy .sw, upS.b.pinAlert .sw, upS.b.pinModulators .sw 3) = (true, false, true) := by decide +kernel

end Sys2Proof.Tests
end

section
/-! SUPPORT. What an arrival at a switch port leaves in the packet buffer (R37): the header fields the stages replace, the operations that
store nothing, and those that store a copy. -/

namespace Sys2Proof.Machine

open Sys2Proof

/-! ## Header fields after a replacement -/

namespace Packet

theorem toNat_hdr_setH (p : Packet) (hi lo v : Nat) (h : lo ≤ hi) (hn : hi < 256) :
    (setH p hi lo v).hdr.toNat = putBits p.hdr.toNat hi lo v := by
  simp only [setH, BitVec.toNat_ofNat]
  exact Nat.mod_eq_of_lt (putBits_lt _ _ _ _ _ h hn p.hdr.isLt)

/-- HOPS reads as what was put there. -/
theorem hops_setH_hops (p : Packet) (v : Nat) (hv : v < 8) : hops (setH p 146 144 v) = v := by
  unfold hops f
  rw [toNat_hdr_setH _ _ _ _ (by omega) (by omega), bits_putBits_same _ _ _ _ (by omega)]
  exact Nat.mod_eq_of_lt hv

/-- A field above HOPS leaves HOPS alone: COLOUR and CMARK are two. -/
theorem hops_setH_above (p : Packet) (hi lo v : Nat) (h : lo ≤ hi) (hn : hi < 256) (ha : 146 < lo) :
    hops (setH p hi lo v) = hops p := by
  unfold hops f
  rw [toNat_hdr_setH _ _ _ _ h hn, bits_putBits_other _ _ _ _ _ _ h (.inl ha)]

@[simp] theorem hops_setH_colour (p : Packet) (v : Nat) : hops (setH p 150 149 v) = hops p :=
  hops_setH_above p _ _ v (by omega) (by omega) (by omega)

@[simp] theorem hops_setH_cmark (p : Packet) (v : Nat) : hops (setH p 148 148 v) = hops p :=
  hops_setH_above p _ _ v (by omega) (by omega) (by omega)

end Packet

namespace Blk

/-! ## Counters, credits and cells leave the switch's own state alone -/

section
variable (b : Blk) (d : Dev) (port : Nat) (p : Packet)

@[simp] theorem owe_sw (tc slots : Nat) : (b.owe d port tc slots).sw = b.sw := by
  unfold owe; split <;> simp

@[simp] theorem owe_out (tc slots : Nat) : (b.owe d port tc slots).out = b.out := by
  unfold owe; split <;> simp

@[simp] theorem partCount_sw (pid c k n : Nat) : (b.partCount pid c k n).sw = b.sw := by
  unfold partCount; split <;> simp

@[simp] theorem partCount_out (pid c k n : Nat) : (b.partCount pid c k n).out = b.out := by
  unfold partCount; split <;> simp

@[simp] theorem countDrop_sw : (b.countDrop p).sw = b.sw := partCount_sw _ _ _ _ _
@[simp] theorem countDrop_out : (b.countDrop p).out = b.out := partCount_out _ _ _ _ _

@[simp] theorem discardIn_sw : (b.discardIn port p).sw = b.sw := by simp [discardIn]
@[simp] theorem discardIn_out : (b.discardIn port p).out = b.out := by simp [discardIn]

@[simp] theorem moveFree_sw (n : Nat) (give : Bool) : (b.moveFree n give).sw = b.sw := setFld_sw _ _ _ _ _ _
@[simp] theorem moveFree_out (n : Nat) (give : Bool) : (b.moveFree n give).out = b.out := setFld_out _ _ _ _ _ _

@[simp] theorem when_count_sw (c : Bool) (off hi lo n : Nat) : (b.when_ c (fun b => b.count d off hi lo n)).sw = b.sw := by
  cases c
  · rfl
  · exact count_sw _ _ _ _ _ _

/-! ## The time unit -/

@[simp] theorem setTimeLocked_sw (v : Bool) : (b.setTimeLocked d v).sw = b.sw := by
  unfold setTimeLocked
  split
  · rfl
  · rw [(RegsOut.cptEvent _ _ _).sw, setFlag_sw]

@[simp] theorem modServo_sw (f : Servo → Servo) : (b.modServo d f).sw = b.sw := modCore_sw _ _ _

@[simp] theorem discipline_sw (off : Int) : (b.discipline d off).sw = b.sw := by
  simp only [discipline]
  split
  · rw [(RegsOut.errRecord _ _ _).sw]; simp
  · simp [fresh]

@[simp] theorem judgeLock_sw (off : Int) (partner : Bool) : (b.judgeLock d off partner).sw = b.sw := by
  simp only [judgeLock]
  split_ifs <;> simp

@[simp] theorem takeReply_sw : (b.takeReply d port p).sw = b.sw := by
  simp only [takeReply]
  split
  · rfl
  · split_ifs <;> simp

/-- A link-local time message touches nothing of the switch's own state (R488, R489). -/
@[simp] theorem timeUnit_sw : (b.timeUnit d port p).sw = b.sw := by
  unfold timeUnit
  split_ifs
  · simp
  · simp [answerSync, sendOn]
  · simp

end

/-! ## Stages that store no copy -/

section
variable (b : Blk) (port : Nat) (p : Packet)

/-- A frame counted toward a sample is in no queue, and nothing is sent (R301). -/
@[simp] theorem sampleFrame_frame (eq : Nat) :
    (b.sampleFrame p port eq).sw.copies = b.sw.copies ∧ (b.sampleFrame p port eq).sw.voqs = b.sw.voqs ∧
      (b.sampleFrame p port eq).out = b.out := by
  simp only [sampleFrame]
  split_ifs <;> simp

@[simp] theorem plainWrite_copies (l : Nat) : (b.plainWrite l).sw.copies = b.sw.copies := by
  unfold plainWrite; split <;> simp

/-- A fold whose every step stores nothing stores nothing, the block being part of what it carries. -/
theorem foldl_copies {α σ : Type} (blk : σ → Blk) (f : σ → α → σ) (h : ∀ st a st', f st a = st' → (blk st').sw.copies = (blk st).sw.copies)
    (l : List α) (st : σ) : (blk (l.foldl f st)).sw.copies = (blk st).sw.copies := by
  induction l generalizing st with
  | nil => rfl
  | cons a r ih => rw [List.foldl_cons, ih, h _ _ _ rfl]

@[simp] theorem ovfWrite_copies (id cells : Nat) : (b.ovfWrite id cells).sw.copies = b.sw.copies := by
  unfold ovfWrite
  split
  · rfl
  · exact foldl_copies (fun b => b) _ (fun _ _ _ h => h ▸ plainWrite_copies _ _) _ _

@[simp] theorem settleSwatch_copies : b.settleSwatch.sw.copies = b.sw.copies := rfl

@[simp] theorem swatchRecord_copies (ingress eq event rule depth stamp : Nat) :
    (b.swatchRecord p ingress eq event rule depth stamp).sw.copies = b.sw.copies := by
  simp only [swatchRecord]
  split_ifs
  · rfl
  all_goals simp

@[simp] theorem mirrorEvent_copies (eq event depth : Nat) (asked : Option Nat) :
    (b.mirrorEvent p port eq event depth asked).sw.copies = b.sw.copies := by
  simp only [mirrorEvent, mirrorAt]
  split
  · exact swatchRecord_copies _ _ _ _ _ _ _ _
  · cases asked
    · rfl
    · exact swatchRecord_copies _ _ _ _ _ _ _ _

@[simp] theorem rand_copies (qset : Nat) : (b.rand qset).2.sw.copies = b.sw.copies := rfl

@[simp] theorem cmapTouch_copies (eq tc : Nat) : (b.cmapTouch eq tc).sw.copies = b.sw.copies := by
  unfold cmapTouch; split <;> simp

@[simp] theorem putVoq_copies (q : Voq) : (b.putVoq q).sw.copies = b.sw.copies := by simp [putVoq]

@[simp] theorem spillStart_copies (id : Nat) (k : VoqKey) : (b.spillStart id k).sw.copies = b.sw.copies := by
  simp only [spillStart]
  split <;> simp

@[simp] theorem enqueue_copies (id : Nat) (k : VoqKey) : (b.enqueue id k).sw.copies = b.sw.copies := by
  simp only [enqueue]
  split_ifs <;> simp

@[simp] theorem holdLane_copies (e : LaneEnt) : (b.holdLane port e).sw.copies = b.sw.copies := rfl

@[simp] theorem redDrop_copies (k : VoqKey) (colour : Nat) : (b.redDrop k colour).2.sw.copies = b.sw.copies := by
  generalize h : b.redDrop k colour = r
  simp only [redDrop] at h
  split_ifs at h <;> subst h
  · exact putVoq_copies _ _
  · exact putVoq_copies _ _
  · exact (rand_copies _ _).trans (putVoq_copies _ _)

/-- What RED and the carve decide stores nothing yet (R277). The definition is unfolded as a function, before it has arguments: the kernel
would otherwise evaluate RED's arithmetic to compare the two sides. -/
theorem copies_of_admitTc7_eq {k : VoqKey} {asked : Option Nat} {r : Bool × Bool × Blk} (h : b.admitTc7 port p k asked = r) :
    r.2.2.sw.copies = b.sw.copies := by
  have hred := b.redDrop_copies k (Packet.colour p)
  generalize hfun : @admitTc7 = admission at h
  delta admitTc7 at hfun
  subst hfun
  beta_reduce at h
  generalize b.redDrop k (Packet.colour p) = red at h hred
  obtain ⟨drop, b'⟩ := red
  simp only at h hred
  split_ifs at h <;> rw [← h] <;> simp [hred]

@[simp] theorem bumpMarks_copies (pid key : Nat) : (b.bumpMarks pid key).sw.copies = b.sw.copies := by
  unfold bumpMarks; split <;> simp

/-- The policer stores nothing and leaves HOPS alone (R252). -/
@[simp] theorem colourStage_frame :
    (b.colourStage p port).2.sw.copies = b.sw.copies ∧ Packet.hops (b.colourStage p port).1 = Packet.hops p := by
  simp only [colourStage]
  split_ifs <;> simp

/-- One OPERATOR stage stores nothing and leaves HOPS alone (R347). -/
@[simp] theorem operatorStage_frame (st : Nat) (second : Bool) (drop : Bool) (asked : Option Nat) :
    (b.operatorStage st second port p drop asked).2.2.2.sw.copies = b.sw.copies ∧
      Packet.hops (b.operatorStage st second port p drop asked).1 = Packet.hops p := by
  simp only [operatorStage]
  split <;> simp

/-- The OPERATOR stages store nothing and leave HOPS alone (R253). -/
@[simp] theorem operators_frame :
    (b.operators port p).2.2.2.sw.copies = b.sw.copies ∧ Packet.hops (b.operators port p).1 = Packet.hops p := by
  simp only [operators]
  split
  · simp
  · split <;> simp

/-- Congestion marks store nothing and leave HOPS alone (R279). -/
@[simp] theorem markStage_frame (k : VoqKey) :
    (b.markStage port p k).2.sw.copies = b.sw.copies ∧ Packet.hops (b.markStage port p k).1 = Packet.hops p := by
  simp only [markStage]
  split_ifs <;> simp

end

/-! ## Operations that store copies -/

/-- Every copy stored after is one stored before, its packet and place unchanged, or `P` holds of its packet and place. -/
def Adds (P : Packet → Reserve → Prop) (b b' : Blk) : Prop :=
  ∀ c ∈ b'.sw.copies, (∃ c' ∈ b.sw.copies, c'.id = c.id ∧ c'.pkt = c.pkt ∧ c'.where_ = c.where_) ∨ P c.pkt c.where_

namespace Adds

variable {P : Packet → Reserve → Prop} {b b' b'' : Blk}

theorem of_copies (h : b'.sw.copies = b.sw.copies) : Adds P b b' :=
  fun c hc => .inl ⟨c, h ▸ hc, rfl, rfl, rfl⟩

/-- Then an operation that stores nothing. -/
theorem same (h : Adds P b b') (e : b''.sw.copies = b'.sw.copies) : Adds P b b'' := by
  intro c hc
  exact h c (e ▸ hc)

theorem forEach {α : Type} {l : List α} {f : Blk → α → Blk} (h : Adds P b b') (hf : ∀ x a, Adds P b x → Adds P b (f x a)) :
    Adds P b (b'.forEach l f) := by
  unfold Blk.forEach
  induction l generalizing b' with
  | nil => exact h
  | cons a r ih => exact ih (hf b' a h)

end Adds

@[simp] theorem moveCells_copies (b : Blk) (w : Reserve) (src tc n : Nat) (give : Bool) :
    (b.moveCells w src tc n give).sw.copies = b.sw.copies := by
  cases w <;> simp [moveCells]

theorem mem_mapFirst {α : Type} {q : α → Bool} {f : α → α} {l : List α} {x : α} (h : x ∈ mapFirst q f l) :
    x ∈ l ∨ ∃ y ∈ l, x = f y := by
  induction l with
  | nil => exact .inl h
  | cons a r ih =>
    unfold mapFirst at h
    split at h
    · obtain rfl | h := List.mem_cons.mp h
      · exact .inr ⟨a, by simp, rfl⟩
      · exact .inl (by simp [h])
    · obtain rfl | h := List.mem_cons.mp h
      · exact .inl (by simp)
      · obtain h | ⟨y, hy, rfl⟩ := ih h
        · exact .inl (by simp [h])
        · exact .inr ⟨y, by simp [hy], rfl⟩

namespace Adds

variable {P : Packet → Reserve → Prop} {b b' : Blk} {port : Nat} {p : Packet}

/-- A new copy is the packet given, at the place given (R254). -/
theorem storeCopy {src qset cells refs : Nat} {w : Reserve} (h : Adds P b b') (hp : P p w) :
    Adds P b (b'.storeCopy p src qset cells refs w).2 := by
  intro c hc
  simp only [Blk.storeCopy, moveCells_copies, modSw_sw, List.mem_append, List.mem_singleton] at hc
  obtain hc | rfl := hc
  · exact h c hc
  · exact .inr hp

/-- What is noted with a copy changes neither its packet nor its place (R297). -/
theorem noteCopy {id eq depth : Nat} {asked : Option Nat} (h : Adds P b b') : Adds P b (b'.noteCopy id eq depth asked) := by
  intro c hc
  obtain hc | ⟨c', hc', rfl⟩ := mem_mapFirst hc
  · exact h c hc
  · exact h c' hc'

/-- TC7 copies are of the packet that enters the queues, in the carve or in HBM (R273, R277). -/
theorem enqueueTc7 {eqs : List Nat} {asked : Option Nat} (h : Adds P b b') (hp : ∀ w, P p w) :
    Adds P b (b'.enqueueTc7 port p eqs asked) := by
  unfold Blk.enqueueTc7
  extract_lets qs step
  have hstep : ∀ st e r, step st e = r → r.2.2.sw.copies = st.2.2.sw.copies := by
    intro st e r hr
    unfold step at hr
    extract_lets k at hr
    have hadmit := @copies_of_admitTc7_eq st.2.2 port p k asked _ rfl
    generalize st.2.2.admitTc7 port p k asked = admitted at hadmit hr
    obtain ⟨ok, inHbm, x⟩ := admitted
    simp only at hr
    split_ifs at hr <;> rw [← hr] <;> exact hadmit
  have hadmitted := foldl_copies (fun st : List Nat × List Nat × Blk => st.2.2) step hstep eqs ([], [], b')
  generalize eqs.foldl step ([], [], b') = r at hadmitted ⊢
  obtain ⟨buf, hbm, admitted⟩ := r
  have hb : Adds P b admitted := h.same hadmitted
  refine forEach ?_ fun x e hx => ?_
  · simp only
    split_ifs
    · exact hb
    · refine forEach (hb.storeCopy (hp _)) fun x e hx => ?_
      exact (noteCopy (hx.same (mirrorEvent_copies _ _ _ _ _ _ _))).same (enqueue_copies _ _ _)
  · extract_lets k d b₁
    have hmirror : Adds P b b₁ := hx.same (mirrorEvent_copies _ _ _ _ _ _ _)
    exact (noteCopy ((hmirror.storeCopy (hp _)).same (ovfWrite_copies _ _ _))).same (putVoq_copies _ _)

end Adds

/-- What a packet may leave in the packet buffer: the switch's own answer, or a packet that has crossed one switch more (R37, R249). -/
def Forwarded (p q : Packet) (w : Reserve) : Prop := w = .answer ∨ Packet.hops q = Packet.hops p + 1

namespace Adds

/-- What the stages behind ROUTE store has crossed one switch more (R37). -/
theorem toQueues {b b' : Blk} {port : Nat} {p : Packet} {eqs : List Nat} (h : Adds (Forwarded p) b b') (h7 : Packet.hops p < 7) :
    Adds (Forwarded p) b (b'.toQueues port p eqs) := by
  unfold Blk.toQueues
  extract_lets qs
  obtain ⟨hcopies₁, hhops₁⟩ := b'.colourStage_frame port p
  generalize b'.colourStage p port = coloured at hcopies₁ hhops₁ ⊢
  obtain ⟨p₁, b₁⟩ := coloured
  obtain ⟨hcopies₂, hhops₂⟩ := b₁.operators_frame port p₁
  simp only at hcopies₁ hhops₁ ⊢
  generalize b₁.operators port p₁ = operated at hcopies₂ hhops₂ ⊢
  obtain ⟨p₂, dropped, asked, b₂⟩ := operated
  simp only at hcopies₂ hhops₂ ⊢
  have hb₂ : Adds (Forwarded p) b b₂ := (h.same hcopies₁).same hcopies₂
  have hhops₃ : Packet.hops (Packet.setH p₂ 146 144 (Packet.hops p₂ + 1)) = Packet.hops p + 1 := by
    rw [Packet.hops_setH_hops _ _ (by omega), hhops₂, hhops₁]
  generalize Packet.setH p₂ 146 144 (Packet.hops p₂ + 1) = p₃ at hhops₃ ⊢
  split_ifs
  · exact hb₂.same (by simp)
  · exact enqueueTc7 (hb₂.same (b₂.sampleFrame_frame port p₃ _).1) fun _ => .inr hhops₃
  · refine (noteCopy (storeCopy ?_ (.inr ?_))).same (enqueue_copies _ _ _)
    · exact ((hb₂.same (b₂.markStage_frame port p₃ _).1).same (sampleFrame_frame _ port _ _).1).same (mirrorEvent_copies _ _ _ _ _ _ _)
    · exact (b₂.markStage_frame port p₃ _).2.trans hhops₃

/-- A request refused leaves the switch's own answer, or waits in its lane (R249, R469). -/
theorem refuseRequest {b b' : Blk} {port status : Nat} {p q : Packet} (h : Adds (Forwarded p) b b') :
    Adds (Forwarded p) b (b'.refuseRequest port q status) := by
  unfold Blk.refuseRequest
  split_ifs
  · exact h.same (holdLane_copies _ _ _)
  all_goals
    have hanswered : Adds (Forwarded p) b (b'.sendAnswer port (b'.answerPacket q status)) :=
      (h.storeCopy (.inl rfl)).same (enqueue_copies _ _ _)
    exact hanswered.same (by simp)

/-- Every path of the pipeline stores answers and packets that have crossed one switch more, or nothing. -/
theorem pipeline {b b' : Blk} {port : Nat} {p : Packet} (h : Adds (Forwarded p) b b') (h7 : Packet.hops p < 7) :
    Adds (Forwarded p) b (b'.pipeline port p) := by
  have hsampled : Adds (Forwarded p) b (b'.sampleFrame p port 0xFF) := h.same (b'.sampleFrame_frame port p _).1
  unfold Blk.pipeline
  extract_lets malformed sampled counted₁ counted₂
  have hcounted : Adds (Forwarded p) b counted₂ := h.same (by simp [counted₁, counted₂])
  have hmalformed : Adds (Forwarded p) b malformed := h.same (by simp [malformed])
  split_ifs
  · exact hmalformed
  · exact h.same (by simp)
  · exact h.same (by simp)
  · exact hsampled.refuseRequest
  · exact h.same (by simp [sampled])
  · exact hsampled.refuseRequest
  · exact hmalformed
  · exact hcounted.same (by simp)
  · -- An opaque name keeps the kernel from evaluating a multicast entry when it compares the matches on it.
    obtain ⟨portsOf, hportsOf⟩ : ∃ portsOf, @mcastPorts = portsOf := ⟨_, rfl⟩
    rw [hportsOf]
    split
    · exact hcounted.same (by simp)
    · exact hcounted.same (by simp)
    · exact hcounted.same (by simp)
    · exact hcounted.toQueues h7
    · split
      · exact hcounted.same (by simp)
      · exact hcounted.toQueues h7

end Adds

/-! ## An arrival -/

section
variable (b : Blk) (port : Nat) (p : Packet)

/-- With nothing held in its lane a packet whose header check holds, and that is no link-local time message, goes through the pipeline. -/
theorem ingress_eq_pipeline (hlane : b.sw.lanes.get port [] = []) (hcrc : Packet.hcrcOk p = true) (hlocal : Packet.linkLocal p = false) :
    b.ingress port p = b.pipeline port p := by
  simp [ingress, releaseLane, enterLane, hlane, hcrc, hlocal]

/-- With nothing held in its lane an arrival stores what R37 and R249 allow. -/
theorem ingress_adds (hlane : b.sw.lanes.get port [] = []) (h7 : Packet.hops p < 7) : Adds (Forwarded p) b (b.ingress port p) := by
  by_cases hcrc : Packet.hcrcOk p = true
  · by_cases hlocal : Packet.linkLocal p = true
    · exact Adds.of_copies (by simp [ingress, hcrc, hlocal])
    · rw [ingress_eq_pipeline b port p hlane hcrc (by simpa using hlocal)]
      exact (Adds.of_copies rfl).pipeline h7
  · exact Adds.of_copies (by simp [ingress, hcrc])

/-- A packet that has crossed five switches leaves the queues and what has been sent as they were (R37). -/
theorem pipeline_of_hops_five (h5 : Packet.hops p = 5) :
    (b.pipeline port p).sw.copies = b.sw.copies ∧ (b.pipeline port p).sw.voqs = b.sw.voqs ∧ (b.pipeline port p).out = b.out := by
  unfold pipeline
  extract_lets malformed
  split
  · simp [malformed]
  · rw [if_pos (by simp [h5])]
    simp

/-- The header of a long packet that enters before its tail is an arrival of a packet with that header; which copies take the rest is noted
with the port (R269). -/
theorem ingressCut_cases : b.ingressCut port p = b ∨
    ∃ payload f, b.ingressCut port p = (b.ingress port { hdr := p.hdr, payload := payload, tail := 0 }).modPort .sw port f := by
  unfold ingressCut
  extract_lets q have_ first
  split
  · exact .inr ⟨_, _, rfl⟩
  · exact .inl rfl

end

end Blk

/-- What arrives at a switch port changes nothing, or is an arrival of a packet with the header given, of the packet itself when all of it is
there (R247, R269); no memory is touched. -/
theorem switchIngress_next {s t : State} {port : Nat} {p : Packet} (h : exec (.switchIngress port p) s = .next t) :
    t.mem = s.mem ∧ t.fmem = s.fmem ∧ ((t.b.sw = s.b.sw ∧ t.b.out = s.b.out) ∨
      ∃ q : Packet, q.hdr = p.hdr ∧ (Packet.whole p = true → q = p) ∧
        t.b.sw = (s.b.ingress port q).sw ∧ t.b.out = (s.b.ingress port q).out) := by
  change execSwitchIngress port p s = .next t at h
  unfold execSwitchIngress State.onIf State.on at h
  split at h
  · cases h
    refine ⟨rfl, rfl, ?_⟩
    simp only
    split_ifs with hup hwhole
    · exact .inr ⟨p, rfl, fun _ => rfl, rfl, rfl⟩
    · obtain hcut | ⟨payload, f, hcut⟩ := s.b.ingressCut_cases port p
      · rw [hcut]
        exact .inl ⟨rfl, rfl⟩
      · rw [hcut, Blk.modPort_sw, Blk.modPort_out]
        exact .inr ⟨{ hdr := p.hdr, payload := payload, tail := 0 }, rfl, fun hw => absurd hw hwhole, rfl, rfl⟩
    · exact .inl ⟨rfl, rfl⟩
  · cases h

namespace Packet

theorem hops_congr {p q : Packet} (h : q.hdr = p.hdr) : hops q = hops p := by simp only [hops, f, h]

theorem linkLocal_congr {p q : Packet} (h : q.hdr = p.hdr) : linkLocal q = linkLocal p := by
  simp only [linkLocal, opcode, f, h]

/-- The header check of a long packet covers the header alone (R42). -/
theorem hcrcOk_congr {p q : Packet} (h : q.hdr = p.hdr) (hl : isLong p = true) : hcrcOk q = hcrcOk p := by
  have hlq : isLong q = true := by rw [← hl]; simp only [isLong, kind, f, h]
  simp only [hcrcOk, hcrc, f, h, hl, hlq, hcrcOf, Bool.not_true, Bool.false_eq_true, if_false]

/-- Only a long packet can have a part still to come (R269). -/
theorem isLong_of_not_whole {p : Packet} (h : whole p = false) : isLong p = true := by
  simp only [whole, Bool.or_eq_false_iff, Bool.not_eq_false'] at h
  exact h.1

end Packet

/-- Settles O50: the stages of an arrival store nothing or a copy with HOPS raised, and HOPS 5 ends the pipeline before any of them. -/
theorem hopsCounted : Obligations.HopsCounted := by
  unfold Obligations.HopsCounted
  constructor
  · intro s t port p hhops hlane hnext c hc
    obtain ⟨-, -, ⟨hsw, -⟩ | ⟨q, hhdr, -, hsw, -⟩⟩ := switchIngress_next hnext
    · exact .inl ⟨c, hsw ▸ hc, rfl⟩
    · have hq := Packet.hops_congr hhdr
      rw [hsw] at hc
      obtain ⟨c', hc', hid, -⟩ | hanswer | hcount := s.b.ingress_adds port q hlane (by omega) c hc
      · exact .inl ⟨c', hc', hid⟩
      · exact .inr (.inl hanswer)
      · exact .inr (.inr (hcount.trans (by rw [hq])))
  · intro s t port p hcrc hlocal hhops hlane hnext
    obtain ⟨hmem, hfmem, ⟨hsw, hout⟩ | ⟨q, hhdr, hwhole, hsw, hout⟩⟩ := switchIngress_next hnext
    · exact ⟨by rw [hsw], by rw [hsw], hout, hmem, hfmem⟩
    · have hcrcq : Packet.hcrcOk q = true := by
        by_cases hw : Packet.whole p = true
        · rw [hwhole hw]
          exact hcrc
        · rw [Packet.hcrcOk_congr hhdr (Packet.isLong_of_not_whole (by simpa using hw))]
          exact hcrc
      obtain ⟨hcopies, hvoqs, hsent⟩ := s.b.pipeline_of_hops_five port q ((Packet.hops_congr hhdr).trans hhops)
      rw [← s.b.ingress_eq_pipeline port q hlane hcrcq ((Packet.linkLocal_congr hhdr).trans hlocal)] at hcopies hvoqs hsent
      exact ⟨by rw [hsw, hcopies], by rw [hsw, hvoqs], hout.trans hsent, hmem, hfmem⟩

end Sys2Proof.Machine
end

section
/-! SUPPORT. FP32 addition (R71): the cases of the sum, and the rounding: the neighbours of a magnitude, the one taken, its encoding. -/

namespace Sys2Proof.Machine

open Sys2Proof

/-! ## Cases of the sum -/

/-- An infinity is no NaN and has the exponent 255. -/
theorem fp32_fields_of_inf {x : Nat} (h : bits x 30 0 = 0x7F800000) : bits x 30 23 = 255 ∧ bits x 22 0 = 0 := by
  simp only [bits, Nat.shiftRight_eq_div_pow] at *
  omega

theorem bitOf_eq_decide (x n : Nat) : bitOf x n = decide (x / 2 ^ n % 2 = 1) := by
  rw [bitOf, Nat.shiftRight_eq_div_pow, beq_eq_decide]

/-- Two infinities of one sign are one encoding. -/
theorem fp32_inf_unique {x y : Nat} (hx : x < 2 ^ 32) (hy : y < 2 ^ 32) (ix : bits x 30 0 = 0x7F800000) (iy : bits y 30 0 = 0x7F800000)
    (h : bitOf x 31 = bitOf y 31) : x = y := by
  rw [bitOf_eq_decide, bitOf_eq_decide, decide_eq_decide] at h
  simp only [bits, Nat.shiftRight_eq_div_pow] at ix iy
  omega

theorem fp32Add_nan {x : Nat} (y : Nat) (he : bits x 30 23 = 255) (hm : bits x 22 0 ≠ 0) : fp32Add x y = 0x7FC00000 := by
  simp [fp32Add, he, hm]

/-- An infinity stays with a finite value and with itself. -/
theorem fp32Add_inf {x y : Nat} (hx : bits x 30 0 = 0x7F800000) (hy : bits y 30 23 ≠ 255 ∨ y = x) : fp32Add x y = x := by
  obtain ⟨hxe, hxm⟩ := fp32_fields_of_inf hx
  obtain hy | rfl := hy
  · have hiy : bits y 30 0 ≠ 0x7F800000 := fun h => hy (fp32_fields_of_inf h).1
    simp [fp32Add, hx, hxm, hy, hiy]
  · simp [fp32Add, hx, hxm]

/-- Two finite values: a zero sum, or one rounding of the exact sum. -/
theorem fp32Add_finite {x y : Nat} (hx : bits x 30 23 ≠ 255) (hy : bits y 30 23 ≠ 255) :
    fp32Add x y = if fp32Units x + fp32Units y = 0 then (if x = 0x80000000 ∧ y = 0x80000000 then 0x80000000 else 0)
      else fp32Round (decide (fp32Units x + fp32Units y < 0)) (fp32Units x + fp32Units y).natAbs := by
  have hix : bits x 30 0 ≠ 0x7F800000 := fun h => hx (fp32_fields_of_inf h).1
  have hiy : bits y 30 0 ≠ 0x7F800000 := fun h => hy (fp32_fields_of_inf h).1
  simp [fp32Add, hx, hy, hix, hiy]

theorem fp32Add_comm {x y : Nat} (hx : x < 2 ^ 32) (hy : y < 2 ^ 32) : fp32Add x y = fp32Add y x := by
  have hsum := Int.add_comm (fp32Units y) (fp32Units x)
  by_cases ix : bits x 30 0 = 0x7F800000 <;> by_cases iy : bits y 30 0 = 0x7F800000
  · by_cases hs : bitOf x 31 = bitOf y 31
    · rw [fp32_inf_unique hx hy ix iy hs]
    · simp [fp32Add, ix, iy, hs, Ne.symm hs, (fp32_fields_of_inf ix).2, (fp32_fields_of_inf iy).2]
  · simp [fp32Add, ix, iy, or_comm]
  · simp [fp32Add, ix, iy, or_comm]
  · simp [fp32Add, ix, iy, hsum, or_comm, and_comm]

/-! ## Magnitudes and their encodings -/

/-- A value with a sign: `neg` stands for minus. -/
def withSign (neg : Bool) (n : Nat) : Int := if neg then -(n : Int) else n

/-- The encoding of the magnitude `m * 2 ^ k`, with its sign: exponent field and fraction together count up by one from each magnitude to
the next. -/
def fp32Code (neg : Bool) (k m : Nat) : Nat := (if neg then 2 ^ 31 else 0) + (k * 2 ^ 23 + m)

/-- A significand of at most 24 bits, or 2^24 itself; below 2^23 only in units of the subnormals. -/
def fp32Sig (k m : Nat) : Prop := m ≤ 2 ^ 24 ∧ (k = 0 ∨ 2 ^ 23 ≤ m)

theorem fp32Code_fields {k m : Nat} (neg : Bool) (h : k * 2 ^ 23 + m < 2 ^ 31) :
    bits (fp32Code neg k m) 30 23 = (k * 2 ^ 23 + m) / 2 ^ 23 ∧ bits (fp32Code neg k m) 22 0 = m % 2 ^ 23 ∧
      bitOf (fp32Code neg k m) 31 = neg := by
  rw [bitOf_eq_decide]
  simp only [bits, Nat.shiftRight_eq_div_pow, fp32Code]
  cases neg <;> simp <;> omega

/-- A finite encoding reads as the magnitude and the sign it stands for. -/
theorem fp32Units_code {k m : Nat} (neg : Bool) (hs : fp32Sig k m) (h : k * 2 ^ 23 + m < 0x7F800000) :
    fp32Units (fp32Code neg k m) = withSign neg (m * 2 ^ k) := by
  obtain ⟨he, hf, hn⟩ := fp32Code_fields neg (k := k) (m := m) (by omega)
  obtain ⟨hm, hk⟩ := hs
  have hmag : (if (k * 2 ^ 23 + m) / 2 ^ 23 = 0 then m % 2 ^ 23
      else (m % 2 ^ 23 + 2 ^ 23) * 2 ^ ((k * 2 ^ 23 + m) / 2 ^ 23 - 1)) = m * 2 ^ k := by
    obtain hlt | hlt | rfl : m < 2 ^ 23 ∨ (2 ^ 23 ≤ m ∧ m < 2 ^ 24) ∨ m = 2 ^ 24 := by omega
    · obtain rfl : k = 0 := by omega
      rw [if_pos (by omega)]
      omega
    · rw [if_neg (by omega), show (k * 2 ^ 23 + m) / 2 ^ 23 - 1 = k by omega, show m % 2 ^ 23 + 2 ^ 23 = m by omega]
    · rw [if_neg (by omega), show (k * 2 ^ 23 + 2 ^ 24) / 2 ^ 23 - 1 = k + 1 by omega, pow_succ']
      omega
  simp only [fp32Units, he, hf, hn, hmag, withSign]

/-- A finite value is a significand of 24 bits times a power of two. -/
theorem fp32Units_form (z : Nat) : ∃ neg m k, m < 2 ^ 24 ∧ fp32Units z = withSign neg (m * 2 ^ k) := by
  have hm : bits z 22 0 < 2 ^ 23 := bits_lt z 22 0
  by_cases he : bits z 30 23 = 0
  · exact ⟨bitOf z 31, bits z 22 0, 0, by omega, by simp [fp32Units, withSign, he]⟩
  · exact ⟨bitOf z 31, bits z 22 0 + 2 ^ 23, bits z 30 23 - 1, by omega, by simp [fp32Units, withSign, he]⟩

/-! ## Rounding -/

/-- Bits of a magnitude below its 24 significant ones. -/
def fp32Shift (v : Nat) : Nat := bitLen v - 24

/-- Whether a magnitude is rounded up, as the model decides it. -/
def fp32Up (v : Nat) : Bool :=
  let k := fp32Shift v
  let r := v - (v >>> k) <<< k
  let half := if k = 0 then 0 else 2 ^ (k - 1)
  decide (0 < k) && (decide (half < r) || (r == half && v >>> k % 2 == 1))

/-- The rounded significand: that of the neighbour below, or one more. -/
def fp32Near (v : Nat) : Nat := v / 2 ^ fp32Shift v + b2n (fp32Up v)

/-- Rounding gives the encoding of the neighbour taken, an infinity from 0x7F800000 on. -/
theorem fp32Round_eq (neg : Bool) (v : Nat) :
    fp32Round neg v = if fp32Shift v * 2 ^ 23 + fp32Near v < 0x7F800000 then fp32Code neg (fp32Shift v) (fp32Near v)
      else if neg then 0xFF800000 else 0x7F800000 := by
  have hmodel : fp32Round neg v = (if neg then 2 ^ 31 else 0) + (if 0x7F800000 ≤ fp32Shift v * 2 ^ 23 + v >>> fp32Shift v + b2n (fp32Up v)
      then 0x7F800000 else fp32Shift v * 2 ^ 23 + v >>> fp32Shift v + b2n (fp32Up v)) := rfl
  rw [hmodel, Nat.shiftRight_eq_div_pow, Nat.add_assoc, ← fp32Near, fp32Code]
  cases neg <;> split <;> split <;> simp <;> omega

/-- R71: up where more than half of the distance between the neighbours lies below the significant bits, or half of it while the neighbour
below is odd. -/
theorem fp32Up_iff (v : Nat) : fp32Up v = true ↔ fp32Shift v ≠ 0 ∧ (2 ^ fp32Shift v < 2 * (v % 2 ^ fp32Shift v) ∨
    (2 * (v % 2 ^ fp32Shift v) = 2 ^ fp32Shift v ∧ v / 2 ^ fp32Shift v % 2 = 1)) := by
  have hrest : v - v / 2 ^ fp32Shift v * 2 ^ fp32Shift v = v % 2 ^ fp32Shift v := (Nat.mod_eq_sub_div_mul).symm
  simp only [fp32Up, Nat.shiftRight_eq_div_pow, Nat.shiftLeft_eq, hrest]
  cases fp32Shift v with
  | zero => simp
  | succ j =>
    simp [pow_succ]
    omega

/-- A magnitude has at most 24 significant bits above those that are cut, exactly 24 where any are. -/
theorem fp32Shift_bounds (v : Nat) : v / 2 ^ fp32Shift v < 2 ^ 24 ∧ (fp32Shift v = 0 ∨ 2 ^ 23 ≤ v / 2 ^ fp32Shift v) := by
  rw [Nat.div_lt_iff_lt_mul (Nat.two_pow_pos _), Nat.le_div_iff_mul_le (Nat.two_pow_pos _), ← pow_add, ← pow_add]
  unfold fp32Shift bitLen
  split
  case isTrue h => simp [h]
  case isFalse h =>
    refine ⟨lt_of_lt_of_le Nat.lt_log2_self (Nat.pow_le_pow_right (by omega) (by omega)), ?_⟩
    by_cases hs : Nat.log2 v + 1 ≤ 24
    · exact .inl (by omega)
    · exact .inr (by rw [show 23 + (Nat.log2 v + 1 - 24) = Nat.log2 v by omega]; exact Nat.log2_self_le h)

theorem b2n_le_one (b : Bool) : b2n b ≤ 1 := by cases b <;> decide

theorem fp32Sig_near (v : Nat) : fp32Sig (fp32Shift v) (fp32Near v) := by
  obtain ⟨hlt, hge⟩ := fp32Shift_bounds v
  have hone := b2n_le_one (fp32Up v)
  unfold fp32Sig fp32Near
  omega

/-- The largest magnitude that is still rounded to a finite value lies below (2^25 - 1) x 2^252 units. -/
theorem fp32Near_finite_iff (v : Nat) : fp32Shift v * 2 ^ 23 + fp32Near v < 0x7F800000 ↔ v < (2 ^ 25 - 1) * 2 ^ 252 := by
  obtain ⟨hlt, hge⟩ := fp32Shift_bounds v
  have hup := fp32Up_iff v
  have hv := Nat.div_add_mod' v (2 ^ fp32Shift v)
  have hr := Nat.mod_lt v (Nat.two_pow_pos (fp32Shift v))
  unfold fp32Near
  generalize v / 2 ^ fp32Shift v = q at *
  generalize v % 2 ^ fp32Shift v = r at *
  generalize fp32Up v = up at *
  have hone := b2n_le_one up
  obtain hk | hk | hk : fp32Shift v ≤ 252 ∨ fp32Shift v = 253 ∨ 254 ≤ fp32Shift v := by omega
  · have hpow : 2 ^ fp32Shift v ≤ 2 ^ 252 := Nat.pow_le_pow_right (by omega) hk
    have hmul : q * 2 ^ fp32Shift v ≤ (2 ^ 24 - 1) * 2 ^ fp32Shift v := Nat.mul_le_mul_right _ (by omega)
    exact iff_of_true (by omega) (by omega)
  · rw [hk] at hv hr hup hge ⊢
    rw [show 2 ^ 253 = 2 * 2 ^ 252 from pow_succ' 2 252] at hv hr hup
    generalize 2 ^ 252 = h at *
    obtain hq | rfl : q ≤ 2 ^ 24 - 2 ∨ q = 2 ^ 24 - 1 := by omega
    · have hmul : q * (2 * h) ≤ (2 ^ 24 - 2) * (2 * h) := Nat.mul_le_mul_right _ hq
      exact iff_of_true (by omega) (by omega)
    · cases up <;> simp [b2n] at * <;> omega
  · have hpow : 2 ^ 254 ≤ 2 ^ fp32Shift v := Nat.pow_le_pow_right (by omega) hk
    have hmul : 2 ^ 23 * 2 ^ 254 ≤ q * 2 ^ fp32Shift v := Nat.mul_le_mul (by omega) hpow
    exact iff_of_false (by omega) (by omega)

/-- No finite value lies strictly between the two neighbours of a magnitude. -/
theorem fp32_no_value_between {v m j : Nat} (hm : m < 2 ^ 24) :
    m * 2 ^ j ≤ v / 2 ^ fp32Shift v * 2 ^ fp32Shift v ∨ (v / 2 ^ fp32Shift v + 1) * 2 ^ fp32Shift v ≤ m * 2 ^ j := by
  obtain ⟨-, hge⟩ := fp32Shift_bounds v
  generalize v / 2 ^ fp32Shift v = q at *
  generalize fp32Shift v = k at *
  obtain hkj | hjk := le_or_gt k j
  · obtain ⟨i, rfl⟩ := Nat.exists_eq_add_of_le' hkj
    rw [pow_add, ← mul_assoc]
    obtain h | h := Nat.lt_or_ge q (m * 2 ^ i)
    · exact .inr (Nat.mul_le_mul_right _ h)
    · exact .inl (Nat.mul_le_mul_right _ h)
  · obtain ⟨i, rfl⟩ := Nat.exists_eq_add_of_lt hjk
    left
    calc m * 2 ^ j ≤ 2 ^ 24 * 2 ^ j := Nat.mul_le_mul_right _ hm.le
      _ = 2 ^ 23 * 2 ^ (j + 1) := by ring
      _ ≤ q * 2 ^ (j + i + 1) := Nat.mul_le_mul (by omega) (Nat.pow_le_pow_right (by omega) (by omega))

/-- The neighbour taken is at least as near as any value not strictly between the two, and where another is equally near, its significand is
even. -/
theorem fp32Near_nearest (v : Nat) {z : Int}
    (hz : z ≤ (v / 2 ^ fp32Shift v * 2 ^ fp32Shift v : Nat) ∨ ((v / 2 ^ fp32Shift v + 1) * 2 ^ fp32Shift v : Nat) ≤ z) :
    ((fp32Near v * 2 ^ fp32Shift v : Nat) - (v : Int)).natAbs ≤ (z - v).natAbs ∧
    (((fp32Near v * 2 ^ fp32Shift v : Nat) - (v : Int)).natAbs = (z - v).natAbs →
      z = (fp32Near v * 2 ^ fp32Shift v : Nat) ∨ fp32Near v % 2 = 0) := by
  have hup := fp32Up_iff v
  have hv := Nat.div_add_mod' v (2 ^ fp32Shift v)
  have hr := Nat.mod_lt v (Nat.two_pow_pos (fp32Shift v))
  have hone : fp32Shift v = 0 → 2 ^ fp32Shift v = 1 := fun h => by rw [h, pow_zero]
  unfold fp32Near
  generalize v / 2 ^ fp32Shift v = q at *
  generalize v % 2 ^ fp32Shift v = r at *
  generalize 2 ^ fp32Shift v = P at *
  generalize fp32Up v = up at *
  rw [Nat.add_mul, Nat.one_mul] at hz
  rw [Nat.add_mul]
  generalize q * P = A at *
  cases up
  · rw [show b2n false = 0 from rfl, Nat.zero_mul]
    rw [iff_false_left (by decide)] at hup
    omega
  · rw [show b2n true = 1 from rfl, Nat.one_mul]
    rw [iff_true_left rfl] at hup
    omega

/-! ## The rules of R71 -/

/-- A magnitude below the bound is rounded to the encoding of the neighbour taken, which is finite and reads as that neighbour. -/
theorem fp32Round_finite (neg : Bool) {v : Nat} (hv : v < (2 ^ 25 - 1) * 2 ^ 252) :
    fp32Round neg v = fp32Code neg (fp32Shift v) (fp32Near v) ∧
    fp32Units (fp32Round neg v) = withSign neg (fp32Near v * 2 ^ fp32Shift v) := by
  have hfin := (fp32Near_finite_iff v).mpr hv
  rw [fp32Round_eq, if_pos hfin]
  exact ⟨rfl, fp32Units_code neg (fp32Sig_near v) hfin⟩

/-- Seen from the side of the magnitude's sign, no finite value of either sign lies strictly between the two neighbours. -/
theorem fp32Units_not_between (neg : Bool) (v z : Nat) :
    (if neg then -fp32Units z else fp32Units z) ≤ (v / 2 ^ fp32Shift v * 2 ^ fp32Shift v : Nat) ∨
      ((v / 2 ^ fp32Shift v + 1) * 2 ^ fp32Shift v : Nat) ≤ (if neg then -fp32Units z else fp32Units z) := by
  obtain ⟨sgn, m, j, hm, hz⟩ := fp32Units_form z
  have hgap := fp32_no_value_between (v := v) (j := j) hm
  rw [hz, withSign]
  generalize m * 2 ^ j = M at *
  generalize v / 2 ^ fp32Shift v * 2 ^ fp32Shift v = A at *
  generalize (v / 2 ^ fp32Shift v + 1) * 2 ^ fp32Shift v = B at *
  cases neg <;> cases sgn <;> simp only [if_true, Bool.false_eq_true, if_false] <;> omega

/-- Nearest among all finite values, whatever the signs; of two equally near ones the even encoding. -/
theorem fp32Round_nearest (neg : Bool) {v : Nat} (hv : v < (2 ^ 25 - 1) * 2 ^ 252) (z : Nat) :
    (fp32Units (fp32Round neg v) - withSign neg v).natAbs ≤ (fp32Units z - withSign neg v).natAbs ∧
    ((fp32Units (fp32Round neg v) - withSign neg v).natAbs = (fp32Units z - withSign neg v).natAbs →
      fp32Units z = fp32Units (fp32Round neg v) ∨ fp32Round neg v % 2 = 0) := by
  obtain ⟨hcode, hunits⟩ := fp32Round_finite neg hv
  have heven : fp32Near v % 2 = 0 → fp32Round neg v % 2 = 0 := by
    rw [hcode, fp32Code]
    split <;> omega
  obtain ⟨hle, htie⟩ := fp32Near_nearest v (fp32Units_not_between neg v z)
  rw [hunits, withSign, withSign]
  generalize fp32Near v * 2 ^ fp32Shift v = R at *
  cases neg <;> simp only [if_true, Bool.false_eq_true, if_false] at * <;> omega

/-- Settles O38: the cases of the sum, and the rounding to the neighbour that is nearer. -/
theorem fp32AddRules : Obligations.Fp32AddRules := by
  unfold Obligations.Fp32AddRules
  refine ⟨fun x y => fp32Add_comm, fun x y => fp32Add_nan y, by decide, fun x y => fp32Add_inf, ?_, ?_, ?_, ?_⟩
  · intro x y hx hy hsum
    rw [fp32Add_finite hx hy, if_pos hsum]
  · intro x y hx hy hsum
    rw [fp32Add_finite hx hy, if_neg hsum]
  · intro neg v hv
    rw [fp32Round_eq, if_neg (mt (fp32Near_finite_iff v).mp (Nat.not_lt.mpr hv))]
  · intro neg v hv
    have hfin := (fp32Near_finite_iff v).mpr hv
    obtain ⟨he, -, hs⟩ := fp32Code_fields neg (k := fp32Shift v) (m := fp32Near v) (by omega)
    rw [← (fp32Round_finite neg hv).1] at he hs
    exact ⟨by omega, hs, fun z _ => fp32Round_nearest neg hv z⟩

end Sys2Proof.Machine
end

section
/-! SUPPORT. A context without tags (R90): a waiting request that its checks refuse ends before it is sent, and what that leaves of the
requests, the ports, the outputs and the tallies. Last, a state in which the statement of R90 fails. -/

namespace Sys2Proof.Machine

open Sys2Proof

/-! ## What the end of a request leaves alone -/

namespace Blk

/-- `b'` is `b` as far as the end point's requests, what has been sent, and the ports are concerned. -/
structure Quiet (b b' : Blk) : Prop where
  reqs : b'.ep.reqs = b.ep.reqs
  out  : b'.out = b.out
  port : ∀ d n, b'.port d n = b.port d n

namespace Quiet

variable {b b' c : Blk}

theorem refl (b : Blk) : Quiet b b := ⟨rfl, rfl, fun _ _ => rfl⟩

theorem trans (h : Quiet b b') (k : Quiet b' c) : Quiet b c :=
  ⟨k.reqs.trans h.reqs, k.out.trans h.out, fun d n => (k.port d n).trans (h.port d n)⟩

theorem modEp {f : Ep → Ep} (b : Blk) (h : (f b.ep).reqs = b.ep.reqs := by rfl) : Quiet b (b.modEp f) :=
  ⟨h, rfl, fun d n => port_modEp b d n f⟩

theorem modCtx (b : Blk) (n : Nat) (f : Ctx → Ctx) : Quiet b (b.modCtx n f) :=
  ⟨rfl, rfl, fun d m => port_modEp b d m _⟩

theorem setTag (b : Blk) (t : Nat) (x : TagEnt) : Quiet b (b.setTag t x) := ⟨rfl, rfl, fun d m => port_modEp b d m _⟩

theorem setFld (b : Blk) (d : Dev) (off hi lo v : Nat) : Quiet b (b.setFld d off hi lo v) :=
  ⟨by simp, by simp, fun e n => port_setFld b d e n off hi lo v⟩

theorem tagDone (b : Blk) (r : Req) : Quiet b (b.tagDone r) := by
  unfold Blk.tagDone
  split
  · exact refl b
  · split <;> exact setTag b _ _

theorem noteFail (b : Blk) (n order st : Nat) : Quiet b (b.noteFail n order st) := by
  unfold Blk.noteFail
  split
  · exact refl b
  · exact modCtx b n _

theorem noteOutcome (b : Blk) (r : Req) (st : Nat) : Quiet b (b.noteOutcome r st) := by
  unfold Blk.noteOutcome
  split
  · exact refl b
  · exact (modEp b).trans (noteFail _ _ _ _)

theorem refreshEpSec (b : Blk) : Quiet b b.refreshEpSec := by
  simp only [Blk.refreshEpSec]
  split
  · exact (setFld b _ _ _ _ _).trans ((setFld _ _ _ _ _ _).trans (modEp _))
  · exact setFld b _ _ _ _ _

end Quiet

end Blk

/-- Whether engine `eng` waits for an answer to a request that reads: a load, an acquire load, an atomic (R90). -/
def Purpose.answers (eng : Nat) : Purpose → Bool
  | .load e _ _ _ => e == eng
  | .atomic e => e == eng
  | .acqLoad e _ _ => e == eng
  | .relAtomic e => e == eng
  | _ => false

namespace Blk

theorem purposeDone_failed {b : Blk} {r : Req} {eng st : Nat} (hwhy : r.why.answers eng) (hst : st ≠ 0) :
    b.purposeDone r st [] = b.answerEng r.ctx eng st [] := by
  unfold purposeDone
  cases hr : r.why <;> simp_all [Purpose.answers, when_]

/-- A refused request of an engine is gone, its engine has the status, and nothing else leaves the part. -/
theorem outcome_unsent {b : Blk} {r : Req} {eng st : Nat} (hsent : r.sent = false) (hwhy : r.why.answers eng) (hst : st ≠ 0) :
    (b.outcome r st []).ep.reqs = b.ep.reqs.filter (fun x => !(x.id == r.id)) ∧
      (b.outcome r st []).out = .ucie (.answer r.ctx eng st []) :: b.out ∧
      ∀ d port, (b.outcome r st []).port d port = b.port d port := by
  have hbefore : Quiet (b.dropReq r.id) (((((b.dropReq r.id).streamDone r st).tagDone r).noteOutcome r st).waitersDone r.id) := by
    rw [streamDone, if_pos (by simp [hsent])]
    exact ((Quiet.tagDone _ _).trans (Quiet.noteOutcome _ _ _)).trans (Quiet.modEp _)
  have hafter (x : Blk) : Quiet x (x.when_ (Req.fills r) (fun b => b.refreshEpSec)) := by
    unfold when_
    split
    · exact Quiet.refreshEpSec x
    · exact Quiet.refl x
  simp only [outcome, purposeDone_failed hwhy hst]
  refine ⟨(hafter _).reqs.trans hbefore.reqs, (hafter _).out.trans (congrArg _ hbefore.out), fun d port => ?_⟩
  rw [(hafter _).port, answerEng, port_emit, hbefore.port, dropReq, port_modEp]

/-! ## Refused before it is sent -/

/-- R90: where nothing of window and size speaks against it, a request that takes a tag ends with UNSUPPORTED in a context without tags. -/
theorem preStatus_quota_zero {b : Blk} {r : Req} {d : CtxDesc} (hdesc : (b.ctx r.ctx).desc = some d) (hquota : d.tagQuota = 0)
    (htag : r.tagged = true) (hown : (r.node == b.ep.node && r.why.isProg) = false) (hgrant : b.granted r.ctx r.node r.off r.span)
    (hoff : r.off + r.span ≤ 2 ^ 44) : b.preStatus r false = 0xD := by
  have hop : r.op ≠ 0xC ∧ r.op ≠ 3 := by
    simp only [Req.tagged, Bool.or_eq_true, beq_iff_eq, Bool.and_eq_true, decide_eq_true_eq] at htag
    omega
  have hcheck : b.checkStatus r false = 0 ∨ b.checkStatus r false = 0xD := by
    simp only [checkStatus, if_neg hop.1, hgrant, hoff, decide_true, Bool.and_self, if_true, Bool.false_or]
    split_ifs
    · exact .inr rfl
    · exact .inl rfl
  simp only [preStatus, hdesc, hquota, htag, hown, if_neg hop.2, beq_self_eq_true, Bool.true_and, Bool.not_false, if_true]
  obtain hc | hc := hcheck <;> rw [hc] <;> split <;> split <;> rfl

end Blk

namespace State

/-- The request tried with the epoch of its context (R138). -/
def tried (s : State) (r : Req) : Req := { r with epoch := s.b.ctxEpoch r.ctx }

/-- The block that holds the request so. -/
def trying (s : State) (r : Req) : Blk := s.b.updReq r.id (fun _ => s.tried r)

/-- A waiting request with its fabric address at hand, which nothing holds up and the far cache does not serve, ends with the status its
checks find (R27). -/
theorem issue_refused {s : State} {r : Req} {t st : Nat} {ecc : Ecc} {bad : Bool} (hfind : s.b.findReq r.id = some r)
    (hsent : r.sent = false) (hmay : s.b.mayIssue r) (hfeeds : r.feeds = []) (hrel : s.b.relBlocks r = false) (hva : r.va = none)
    (hprog : (s.trying r).progBlocked (s.tried r) = false)
    (hserve : (s.trying r).fcServe (s.tried r) false bad = (false, s.trying r))
    (hst : (s.trying r).preStatus (s.tried r) false = st) (hbad : st ≠ 0) :
    s.issue r.id t ecc bad = { s with b := (s.trying r).endsUnsent (s.tried r) st } := by
  have hreach : s.b.reachReq (s.tried r) = s.b := by
    unfold Blk.reachReq
    split <;> simp_all [tried]
  have htrans : s.b.translated (s.tried r) = some (s.tried r, false) := by
    simp only [Blk.translated, tried, hva]
  have hcond : (r.sent || !s.b.mayIssue r || !r.feeds.isEmpty || s.b.relBlocks r) = false := by
    simp [hsent, hmay, hfeeds, hrel]
  unfold trying at *
  unfold issue
  rw [hfind]
  simp only [hcond, Bool.false_eq_true, if_false]
  rw [← tried, hreach, htrans]
  simp only [hprog, hserve, hst, Bool.false_eq_true, if_false, if_pos hbad]

end State

namespace Blk

/-- The far cache does not serve a source READ, nor anything while it is empty. -/
theorem fcServe_miss {b : Blk} {r : Req} (upper bad : Bool) (h : b.ep.fc = [] ∨ r.why.isProg) : b.fcServe r upper bad = (false, b) := by
  unfold fcServe
  split
  · rfl
  · split
    · rename_i hwhy
      have hfc : b.ep.fc = [] := h.resolve_right (by simp [hwhy, Purpose.isProg])
      simp [fcHit, hfc]
    · rfl

end Blk

/-- R90 for a load, an acquire load and an atomic: nothing is sent, and the engine has UNSUPPORTED. -/
theorem requestIssue_without_tags {s : State} {r : Req} {t eng : Nat} {ecc : Ecc} {bad : Bool} {d : CtxDesc} (ht : hasTag t)
    (hserving : s.b.serving .ep) (hreqs : s.b.ep.reqs = [r]) (hsent : r.sent = false) (hmay : s.b.mayIssue r) (hfeeds : r.feeds = [])
    (hrels : s.b.ep.rels = []) (hva : r.va = none) (hfc : s.b.ep.fc = []) (hdesc : (s.b.ctx r.ctx).desc = some d) (hquota : d.tagQuota = 0)
    (hgrant : s.b.granted r.ctx r.node r.off r.span) (hoff : r.off + r.span ≤ 2 ^ 44) (htag : r.tagged = true) (hwhy : r.why.answers eng) :
    ∃ u, exec (.requestIssue r.id t ecc bad) s = .next u ∧ u.b.ep.reqs = [] ∧ u.b.out = .ucie (.answer r.ctx eng 0xD []) :: s.b.out ∧
      ∀ d port, u.b.port d port = s.b.port d port := by
  have hisProg : r.why.isProg = false := by
    cases h : r.why <;> simp_all [Purpose.answers, Purpose.isProg]
  have hends : (s.trying r).endsUnsent (s.tried r) 0xD = (s.trying r).outcome (s.tried r) 0xD [] := by
    cases h : r.why <;> simp_all [Blk.endsUnsent, State.tried, Purpose.isProg]
  have hissue : s.issue r.id t ecc bad = { s with b := (s.trying r).endsUnsent (s.tried r) 0xD } := by
    refine State.issue_refused ?_ hsent hmay hfeeds ?_ hva ?_ (Blk.fcServe_miss _ _ (.inl hfc)) ?_ (by decide)
    · simp [Blk.findReq, hreqs]
    · unfold Blk.relBlocks
      split <;> simp [hrels]
    · simp [Blk.progBlocked, State.tried, hisProg]
    · exact Blk.preStatus_quota_zero hdesc hquota htag (by simp [State.tried, hisProg]) hgrant hoff
  obtain ⟨hreqs', hout, hport⟩ := Blk.outcome_unsent (b := s.trying r) (r := s.tried r) (eng := eng) (st := 0xD) hsent hwhy (by decide)
  refine ⟨{ s with b := (s.trying r).endsUnsent (s.tried r) 0xD }, ?_, ?_, ?_, ?_⟩
  · rw [← hissue]
    simp [exec, execRequestIssue, ht, hserving]
  · rw [hends, hreqs']
    simp [State.trying, State.tried, Blk.updReq, hreqs, mapFirst]
  · rw [hends, hout]
    rfl
  · intro d port
    rw [hends, hport]
    exact Blk.port_modEp _ _ _ _


/-! ## Tallies -/

namespace Blk

section
variable (b : Blk) (n m k st hi lo : Nat)

theorem RegsOut.setPending (d : Dev) (off v : Nat) : RegsOut b (b.setPending d off n v) d := by
  unfold Blk.setPending
  split
  · exact RegsOut.refl _ _
  · exact (RegsOut.setFlag b d _ _ _).trans (RegsOut.sendVector _ _ _)

theorem RegsOut.tallyFire : RegsOut b (b.tallyFire n) .ep := by
  unfold Blk.tallyFire
  exact ((RegsOut.setFlag b .ep _ _ _).trans (RegsOut.when_ _ _ _ _ (RegsOut.setPending _ _ _ _ _))).trans
    (RegsOut.when_ _ _ _ _ (RegsOut.emit _ _ _))

theorem RegsOut.tallyErr : RegsOut b (b.tallyErr n st) .ep := by
  simp only [Blk.tallyErr]
  split_ifs
  · exact RegsOut.refl _ _
  · exact RegsOut.setFlag _ _ _ _ _
  · exact (RegsOut.setFld b .ep _ _ _ _).trans (RegsOut.setFlag _ _ _ _ _)

theorem RegsOut.creditOwn (c : Nat) : RegsOut b (b.creditOwn c n k st) .ep := by
  simp only [Blk.creditOwn, Blk.credit]
  split_ifs
  · exact RegsOut.refl _ _
  · exact RegsOut.count _ _ _ _ _ _
  · exact ((RegsOut.setFld b .ep _ _ _ _).trans (RegsOut.tallyErr _ _ _)).trans (RegsOut.tallyFire _ _)
  · exact (RegsOut.setFld b .ep _ _ _ _).trans (RegsOut.tallyErr _ _ _)

theorem RegsOut.forEach {α : Type} {d : Dev} {f : Blk → α → Blk} (h : ∀ x a, RegsOut x (f x a) d) (l : List α) :
    RegsOut b (b.forEach l f) d := by
  unfold Blk.forEach
  induction l generalizing b with
  | nil => exact RegsOut.refl _ _
  | cons a l ih => exact (h b a).trans (ih _)

/-- A vector leaves every register but those of the pending bits of vectors alone. -/
theorem fld_sendVector (d : Dev) {off : Nat} (v : Nat) (h : off ≠ offMsixPba) :
    (b.sendVector d v).fld d off hi lo = b.fld d off hi lo := by
  unfold sendVector
  split
  · exact fld_setFld_reg _ _ _ _ _ _ _ _ _ h
  · simp [fld, reg]

theorem fld_setPending (d : Dev) {off p : Nat} (v : Nat) (h : off ≠ offMsixPba) (hp : off ≠ p) :
    (b.setPending d p n v).fld d off hi lo = b.fld d off hi lo := by
  unfold setPending
  split
  · rfl
  · rw [fld_sendVector _ _ _ _ _ h]
    exact fld_setFld_reg _ _ _ _ _ _ _ _ _ hp

theorem fld_when {d : Dev} {off : Nat} {f : Blk → Blk} (c : Bool) (h : ∀ x, (f x).fld d off hi lo = x.fld d off hi lo) :
    (b.when_ c f).fld d off hi lo = b.fld d off hi lo := by
  cases c
  · rfl
  · exact h b

end

/-- ERR and FIRST_STATUS of a tally (R149). -/
def firstErr (b : Blk) (n : Nat) : Option Nat := if b.flag .ep (offTallyCfg n) 9 then some (b.fld .ep (offTallyCfg n) 8 5) else none

section
variable {b b' : Blk} {n m k st hi lo : Nat}

theorem firstErr_congr (h : ∀ hi lo, hi < 10 → b'.fld .ep (offTallyCfg n) hi lo = b.fld .ep (offTallyCfg n) hi lo) :
    b'.firstErr n = b.firstErr n := by
  unfold firstErr flag
  rw [h 9 9 (by omega), h 8 5 (by omega)]

theorem owns_congr {c : Nat} (h : ∀ hi lo, 10 < lo → b'.fld .ep (offTallyCfg n) hi lo = b.fld .ep (offTallyCfg n) hi lo) :
    b'.owns c n = b.owns c n := by
  simp only [owns, tallyValid, tallyOwner, flag, h 63 63 (by omega), h 54 45 (by omega)]

/-- Firing writes no field of a tally's configuration but FIRED. -/
theorem fld_tallyFire (hn : n < 4096) (h : hi < 10 ∨ 10 < lo) :
    (b.tallyFire m).fld .ep (offTallyCfg n) hi lo = b.fld .ep (offTallyCfg n) hi lo := by
  have hflag : (b.setFlag .ep (offTallyCfg m) 10 true).fld .ep (offTallyCfg n) hi lo = b.fld .ep (offTallyCfg n) hi lo := by
    by_cases hm : n = m
    · subst hm
      exact fld_setFld_other _ _ _ _ _ _ _ _ le_rfl (by omega) h
    · exact fld_setFld_reg _ _ _ _ _ _ _ _ _ (by unfold offTallyCfg; omega)
  have hpend (x : Blk) : (x.setPending .ep (offTallyPend (m / 64)) (m % 64) (32 + m / 64 / 2)).fld .ep (offTallyCfg n) hi lo
      = x.fld .ep (offTallyCfg n) hi lo :=
    fld_setPending _ _ _ _ _ _ (by unfold offTallyCfg offMsixPba; omega) (by unfold offTallyCfg offTallyPend; omega)
  have hnotice (x : Blk) : (x.emit (.ucie (.tallyNotice m))).fld .ep (offTallyCfg n) hi lo = x.fld .ep (offTallyCfg n) hi lo := rfl
  unfold tallyFire
  exact (fld_when _ _ _ _ hnotice).trans ((fld_when _ _ _ _ hpend).trans hflag)

/-- A failing credit writes ERR and FIRST_STATUS of its own tally only. -/
theorem fld_tallyErr (h : n ≠ m ∨ 9 < lo) : (b.tallyErr m st).fld .ep (offTallyCfg n) hi lo = b.fld .ep (offTallyCfg n) hi lo := by
  have hset (x : Blk) (i j v : Nat) (hij : j ≤ i) (hi9 : i ≤ 9) :
      (x.setFld .ep (offTallyCfg m) i j v).fld .ep (offTallyCfg n) hi lo = x.fld .ep (offTallyCfg n) hi lo := by
    by_cases hm : n = m
    · subst hm
      exact fld_setFld_other _ _ _ _ _ _ _ _ hij (by omega) (by omega)
    · exact fld_setFld_reg _ _ _ _ _ _ _ _ _ (by unfold offTallyCfg; omega)
  simp only [tallyErr]
  split_ifs
  · rfl
  · exact hset _ _ _ _ le_rfl le_rfl
  · exact (hset _ _ _ _ le_rfl le_rfl).trans (hset _ _ _ _ (by omega) (by omega))

/-- R149: the first failing credit of a tally is kept. -/
theorem firstErr_tallyErr (hst : st ≠ 0) (hlt : st < 16) : (b.tallyErr n st).firstErr n = some ((b.firstErr n).getD st) := by
  unfold firstErr
  have hflag (x : Blk) : (x.setFlag .ep (offTallyCfg n) 9 true).flag .ep (offTallyCfg n) 9 = true := flag_setFlag_same _ _ _ _ _ (by omega)
  have hfld (x : Blk) : (x.setFlag .ep (offTallyCfg n) 9 true).fld .ep (offTallyCfg n) 8 5 = x.fld .ep (offTallyCfg n) 8 5 :=
    fld_setFld_other _ _ _ _ _ _ _ _ le_rfl (by omega) (by omega)
  simp only [tallyErr, if_neg hst, hflag, hfld, if_true]
  split
  · simp
  · rw [fld_setFld_same _ _ _ _ _ _ (by omega) (by omega)]
    simp
    omega

/-- Where a credit may write a field of a tally's configuration. -/
theorem fld_creditOwn {c : Nat} (hn : n < 4096) (h : n ≠ m ∧ hi < 10 ∨ 10 < lo) :
    (b.creditOwn c m k st).fld .ep (offTallyCfg n) hi lo = b.fld .ep (offTallyCfg n) hi lo := by
  have hval (v : Nat) : (b.setFld .ep (offTallyVal m) 31 0 v).fld .ep (offTallyCfg n) hi lo = b.fld .ep (offTallyCfg n) hi lo :=
    fld_setFld_reg _ _ _ _ _ _ _ _ _ (by unfold offTallyCfg offTallyVal; omega)
  have herr (x : Blk) : (x.tallyErr m st).fld .ep (offTallyCfg n) hi lo = x.fld .ep (offTallyCfg n) hi lo := fld_tallyErr (by omega)
  simp only [creditOwn, credit]
  split_ifs
  · rfl
  · exact fld_setFld_reg _ _ _ _ _ _ _ _ _ (by unfold offTallyCfg offEpHomeStat; omega)
  · rw [fld_tallyFire hn (by omega), herr, hval]
  · rw [herr, hval]

theorem owns_creditOwn {c e : Nat} (hn : n < 4096) : (b.creditOwn c m k st).owns e n = b.owns e n :=
  owns_congr fun _ _ h => fld_creditOwn hn (.inr h)

/-- A failing credit of the context that owns a tally marks it. -/
theorem firstErr_creditOwn {c : Nat} (hn : n < 4096) (howns : b.owns c n) (hst : st ≠ 0) (hlt : st < 16) :
    (b.creditOwn c n k st).firstErr n = some ((b.firstErr n).getD st) := by
  obtain ⟨hvalid, howner⟩ : b.tallyValid n = true ∧ b.tallyOwner n = c := by simpa [owns] using howns
  have hval (v : Nat) : (b.setFld .ep (offTallyVal n) 31 0 v).firstErr n = b.firstErr n :=
    firstErr_congr fun _ _ _ => fld_setFld_reg _ _ _ _ _ _ _ _ _ (by unfold offTallyCfg offTallyVal; omega)
  simp only [creditOwn, credit, hvalid, howner, bne_self_eq_false, Bool.and_false, Bool.not_true, Bool.false_eq_true, if_false]
  split
  · rw [firstErr_congr fun _ _ h => fld_tallyFire hn (.inl h), firstErr_tallyErr hst hlt, hval]
  · rw [firstErr_tallyErr hst hlt, hval]

/-- Any failing credit of a context leaves the mark of a tally it owns, or sets it. -/
theorem firstErr_creditOwn_or {c : Nat} (hn : n < 4096) (howns : b.owns c n) (hst : st ≠ 0) (hlt : st < 16) :
    (b.creditOwn c m k st).firstErr n = b.firstErr n ∨ (b.creditOwn c m k st).firstErr n = some ((b.firstErr n).getD st) := by
  by_cases h : n = m
  · subst h
    exact .inr (firstErr_creditOwn hn howns hst hlt)
  · exact .inl (firstErr_congr fun _ _ h10 => fld_creditOwn hn (.inl ⟨h, h10⟩))

end

end Blk

/-! ## A descriptor that ends early -/

namespace Blk

/-- The credit of a request of a descriptor that ends (R144). -/
def creditEnd (n st : Nat) (b : Blk) (r : Req) : Blk := b.when_ r.cplEn (fun b => b.creditOwn n r.tally 1 st)

/-- The unsent requests of a descriptor are credited, each to its tally, and any failing one marks a tally of its context for good. -/
theorem firstErr_forEach_creditEnd {n st tally : Nat} (hn : tally < 4096) (hst : st ≠ 0) (hlt : st < 16) (l : List Req) (b : Blk)
    (howns : b.owns n tally) :
    ((b.forEach l (creditEnd n st)).firstErr tally = b.firstErr tally ∨
      (b.forEach l (creditEnd n st)).firstErr tally = some ((b.firstErr tally).getD st)) ∧
    ((∃ w ∈ l, w.cplEn ∧ w.tally = tally) → (b.forEach l (creditEnd n st)).firstErr tally = some ((b.firstErr tally).getD st)) := by
  induction l generalizing b with
  | nil => exact ⟨.inl rfl, by simp⟩
  | cons a l ih =>
    have howns' : (creditEnd n st b a).owns n tally := by
      unfold creditEnd when_
      split
      · rw [owns_creditOwn hn]
        exact howns
      · exact howns
    have hhead : (creditEnd n st b a).firstErr tally = b.firstErr tally ∨
        (creditEnd n st b a).firstErr tally = some ((b.firstErr tally).getD st) := by
      unfold creditEnd when_
      split
      · exact firstErr_creditOwn_or hn howns hst hlt
      · exact .inl rfl
    have hmark : a.cplEn → a.tally = tally → (creditEnd n st b a).firstErr tally = some ((b.firstErr tally).getD st) := by
      rintro hcpl rfl
      unfold creditEnd
      rw [hcpl]
      exact firstErr_creditOwn hn howns hst hlt
    obtain ⟨htail, hmember⟩ := ih (creditEnd n st b a) howns'
    rw [show b.forEach (a :: l) (creditEnd n st) = (creditEnd n st b a).forEach l (creditEnd n st) from rfl]
    refine ⟨?_, ?_⟩
    · obtain h | h := hhead <;> rw [h] at htail
      · exact htail
      · exact .inr (htail.elim id id)
    · rintro ⟨w, hw, hcpl, htally⟩
      obtain rfl | hw := List.mem_cons.mp hw
      · rw [hmark hcpl htally] at htail
        exact htail.elim id id
      · rw [hmember ⟨w, hw, hcpl, htally⟩]
        obtain h | h := hhead <;> rw [h]
        rfl

/-- A descriptor whose unsent requests are gone, each credited. -/
def descCredited (b : Blk) (n ring st : Nat) : Blk :=
  (b.modEp (fun e => { e with reqs := e.reqs.filter (fun r => r.sent || !ofDesc n ring r) })).forEach
    (b.ep.reqs.filter (fun r => !r.sent && ofDesc n ring r)) (creditEnd n st)

/-- The descriptor in progress leaves the chip. -/
def descOver (b : Blk) (n ring : Nat) : Blk :=
  match (b.ctx n).prog with
  | d :: _ => if d.ring = ring then b.progEnd n else b
  | [] => b

theorem descEnds_eq (b : Blk) (n ring st : Nat) : b.descEnds n ring st = (b.descCredited n ring st).descOver n ring := by
  unfold descEnds descCredited descOver
  rfl

theorem descCredited_regsOut (b : Blk) (n ring st : Nat) :
    RegsOut (b.modEp (fun e => { e with reqs := e.reqs.filter (fun r => r.sent || !ofDesc n ring r) })) (b.descCredited n ring st) .ep :=
  RegsOut.forEach _ (fun x _ => RegsOut.when_ x .ep _ _ (RegsOut.creditOwn _ _ _ _ _)) _

theorem descOver_cases (b : Blk) (n ring : Nat) : b.descOver n ring = b ∨ b.descOver n ring = b.progEnd n := by
  unfold descOver
  split
  · split
    · exact .inr rfl
    · exact .inl rfl
  · exact .inl rfl

theorem progEnd_frame (b : Blk) (n : Nat) : (b.progEnd n).ep.reqs = b.ep.reqs ∧ ∀ d port, (b.progEnd n).port d port = b.port d port := by
  have hcount : RegsOut b (b.engineIssued n) .ep := by
    unfold engineIssued
    split
    · exact RegsOut.count _ _ _ _ _ _
    · exact RegsOut.refl _ _
  have hprog := Quiet.modCtx (b.engineIssued n) n (fun c => { c with prog := c.prog.drop 1 })
  exact ⟨hprog.reqs.trans (congrArg Ep.reqs hcount.ep), fun d port => (hprog.port d port).trans (hcount.port d port)⟩

/-- A descriptor that ends leaves none of its unsent requests, and the ports as they were. -/
theorem descEnds_frame (b : Blk) (n ring st : Nat) :
    (b.descEnds n ring st).ep.reqs = b.ep.reqs.filter (fun r => r.sent || !ofDesc n ring r) ∧
      ∀ d port, (b.descEnds n ring st).port d port = b.port d port := by
  have hcredited := descCredited_regsOut b n ring st
  have hreqs := congrArg Ep.reqs hcredited.ep
  have hport (d : Dev) (port : Nat) : (b.descCredited n ring st).port d port = b.port d port :=
    (hcredited.port d port).trans (port_modEp _ _ _ _)
  rw [descEnds_eq]
  obtain h | h := descOver_cases (b.descCredited n ring st) n ring <;> rw [h]
  · exact ⟨hreqs, hport⟩
  · obtain ⟨hreqs', hport'⟩ := progEnd_frame (b.descCredited n ring st) n
    exact ⟨hreqs'.trans hreqs, fun d port => (hport' d port).trans (hport d port)⟩

/-- The engine's count is no register of a tally: engines are below 72, and the tallies' registers begin at that of engine 256. -/
theorem fld_progEnd {b : Blk} {c n hi lo : Nat} (hn : n < 4096) (heng : ∀ e, (b.ctx c).engine = some e → hasEngine e) :
    (b.progEnd c).fld .ep (offTallyCfg n) hi lo = b.fld .ep (offTallyCfg n) hi lo := by
  have hcount : (b.engineIssued c).fld .ep (offTallyCfg n) hi lo = b.fld .ep (offTallyCfg n) hi lo := by
    unfold engineIssued
    split
    · rename_i e he
      have hlt : e < 72 := by simpa [hasEngine] using heng e he
      exact fld_setFld_reg _ _ _ _ _ _ _ _ _ (by unfold offTallyCfg offCe; omega)
    · rfl
  exact hcount

/-- R149: the tally of an unsent write of a descriptor that ends keeps its first failing status, else takes this one. -/
theorem firstErr_descEnds {b : Blk} {w : Req} {n ring st : Nat} (heng : ∀ e, (b.ctx n).engine = some e → hasEngine e)
    (hw : w ∈ b.ep.reqs) (hsent : w.sent = false) (hof : ofDesc n ring w) (hcpl : w.cplEn) (hn : w.tally < 4096) (howns : b.owns n w.tally)
    (hst : st ≠ 0) (hlt : st < 16) : (b.descEnds n ring st).firstErr w.tally = some ((b.firstErr w.tally).getD st) := by
  have hcredited : (b.descCredited n ring st).firstErr w.tally = some ((b.firstErr w.tally).getD st) :=
    (firstErr_forEach_creditEnd hn hst hlt _ (b.modEp _) howns).2 ⟨w, by simp [hw, hsent, hof], hcpl, rfl⟩
  have hctx : (b.descCredited n ring st).ctx n = b.ctx n := by
    unfold ctx
    rw [(descCredited_regsOut b n ring st).ep]
    rfl
  rw [descEnds_eq]
  obtain h | h := descOver_cases (b.descCredited n ring st) n ring <;> rw [h]
  · exact hcredited
  · rw [firstErr_congr fun _ _ _ => fld_progEnd hn (hctx ▸ heng)]
    exact hcredited

end Blk

/-- R90 for the source READ of a COPY, of a context on an engine that the part has: nothing is sent, and the write that waits for the data is
credited with UNSUPPORTED. -/
theorem requestIssue_copy_without_tags {s : State} {r w : Req} {t ring wid skip : Nat} {ecc : Ecc} {bad : Bool} {d : CtxDesc} (ht : hasTag t)
    (hserving : s.b.serving .ep) (hreqs : s.b.ep.reqs = [r, w]) (hsent : r.sent = false) (hmay : s.b.mayIssue r) (hfeeds : r.feeds = [])
    (hva : r.va = none) (hwhy : r.why = .copyRead ring wid skip) (hop : r.op = 1) (hnode : r.node ≠ s.b.ep.node)
    (hdesc : (s.b.ctx r.ctx).desc = some d) (hquota : d.tagQuota = 0) (heng : ∀ e, (s.b.ctx r.ctx).engine = some e → hasEngine e)
    (hgrant : s.b.granted r.ctx r.node r.off r.span) (hoff : r.off + r.span ≤ 2 ^ 44) (hwsent : w.sent = false)
    (hctx : w.ctx = r.ctx) (hwwhy : w.why = .prog ring) (hwfeeds : w.feeds = [r.id]) :
    ∃ u, exec (.requestIssue r.id t ecc bad) s = .next u ∧ u.b.ep.reqs = [] ∧ (∀ d port, u.b.port d port = s.b.port d port) ∧
      (w.cplEn → w.tally < 4096 → s.b.owns w.ctx w.tally → u.b.firstErr w.tally = some ((s.b.firstErr w.tally).getD 0xD)) := by
  have hheld : (s.trying r).ep.reqs = [s.tried r, w] := by
    simp [State.trying, Blk.updReq, hreqs, mapFirst]
  have hends : (s.trying r).endsUnsent (s.tried r) 0xD = (s.trying r).descEnds r.ctx ring 0xD := by
    simp [Blk.endsUnsent, State.tried, hwhy]
  have hissue : s.issue r.id t ecc bad = { s with b := (s.trying r).endsUnsent (s.tried r) 0xD } := by
    refine State.issue_refused ?_ hsent hmay hfeeds ?_ hva ?_ (Blk.fcServe_miss _ _ (.inr ?_)) ?_ (by decide)
    · simp [Blk.findReq, hreqs]
    · simp [Blk.relBlocks, hwhy, Purpose.eng]
    · simp [Blk.progBlocked, hheld, hwfeeds]
    · simp [State.tried, hwhy, Purpose.isProg]
    · exact Blk.preStatus_quota_zero hdesc hquota (by simp [Req.tagged, State.tried, hop])
        (by simp [State.tried, State.trying, Blk.updReq, hnode]) hgrant hoff
  obtain ⟨hleft, hport⟩ := (s.trying r).descEnds_frame r.ctx ring 0xD
  refine ⟨{ s with b := (s.trying r).endsUnsent (s.tried r) 0xD }, ?_, ?_, ?_, ?_⟩
  · rw [← hissue]
    simp [exec, execRequestIssue, ht, hserving]
  · rw [hends, hleft, hheld]
    simp [Blk.ofDesc, State.tried, hsent, hwhy, hwsent, hctx, hwwhy]
  · intro d port
    rw [hends, hport]
    exact Blk.port_modEp _ _ _ _
  · intro hcpl hn howns
    rw [hends]
    exact Blk.firstErr_descEnds heng (by simp [hheld]) hwsent (by simp [Blk.ofDesc, hctx, hwwhy]) hcpl hn (hctx ▸ howns)
      (by decide) (by decide)

/-! ## Where the statement of R90 fails -/

namespace QuotaZero

/-- A context descriptor without tags, with one window over the nodes 0 to 20. -/
def desc : CtxDesc :=
  { tagQuota := 0, fcEn := false, planeMask := 15, pasid := 0, partition := 5, streamQuota := 1, ringSize := 0, engineMask := 1,
    ringOff := 0, windows := [{ nodeLo := 0, nodeHi := 20, base := 0, limit := 16 }] }

/-- The source READ of a COPY at ring index 4. -/
def source : Req := { Req.blank with id := 7, ctx := 3, why := .copyRead 4 8 0, op := 1, rd := true, node := 12, rdBytes := 32 }

/-- The write that waits for its data, credited to tally 0. -/
def write : Req := { Req.blank with id := 8, ctx := 3, why := .prog 4, op := 2, wr := true, node := 12, feeds := [7], cplEn := true }

/-- The end point in service with the COPY in progress in context 3, which owns tally 0. The context names engine 256, which no part has:
the register of that engine is the one of tally 0, whose low five bits are set. -/
def state : State :=
  let b := State.reset.b.modCore .ep (fun c => { c with boot := { c.boot with released := true, started := true } })
  let b := (b.setCtxState 3 2).putReg .ep (offTallyCfg 0) (2 ^ 63 + 3 * 2 ^ 45 + 31)
  let b := b.modCtx 3 (fun c => { c with
    desc := some desc, engine := some 256, prog := [{ ring := 4, qs := [], begun := true, left := 1, bytes := 0, ext := [] }] })
  { State.reset with b := b.modEp (fun e => { e with reqs := [source, write] }) }

/-- FIRST_STATUS of tally 0 after a step. -/
def statusAfter : Res → Option Nat
  | .next u => some (u.b.fld .ep (offTallyCfg 0) 8 5)
  | _ => none

/-- The count of issued descriptors carries into FIRST_STATUS: UNSUPPORTED, 0xD, becomes 0xE. -/
theorem statusAfter_issue : statusAfter (exec (.requestIssue source.id 1 { errs := [], moved := [] } false) state) = some 0xE := by
  decide +kernel

end QuotaZero

/-- Refutes O45: its clause on a COPY allows a context that names engine 256. Once the waiting write is credited, that engine counts the
descriptor (R446) in the register that is also the tally's, and FIRST_STATUS reads 0xE. The rest of R90 holds:
`requestIssue_without_tags` and, for the engines a part has, `requestIssue_copy_without_tags`. -/
theorem not_quotaZeroUnsupported : ¬ Obligations.QuotaZeroUnsupported := by
  unfold Obligations.QuotaZeroUnsupported
  rintro ⟨-, hcopy⟩
  obtain ⟨u, hu, -, -, hcredit⟩ := hcopy QuotaZero.state QuotaZero.source QuotaZero.write 1 { errs := [], moved := [] } false
    QuotaZero.desc 4 8 0 (by decide) (by decide +kernel) rfl rfl (by decide +kernel) rfl rfl rfl rfl (by decide +kernel) (by decide +kernel) rfl
    (by decide +kernel) (by decide +kernel) (by decide) rfl rfl rfl rfl
  obtain ⟨-, hunsupported⟩ := hcredit rfl (by decide) (by decide +kernel)
  have hcarried : u.b.fld .ep (offTallyCfg 0) 8 5 = 0xE := by
    have hrun := QuotaZero.statusAfter_issue
    rw [hu] at hrun
    exact Option.some.inj hrun
  exact absurd (hcarried.symm.trans (hunsupported (by decide +kernel))) (by decide)

end Sys2Proof.Machine
end

section
/-! SUPPORT. Requests that an invalidation has counted (R155): no retry of one becomes due or leaves, and one that lacks a good response
reaches its outcome under R60, which answers the engine that waits. -/

namespace Sys2Proof.Machine

open Sys2Proof

namespace Blk

section
variable {b : Blk} {r : Req} {id : Nat}

/-- The only request is found by its number. -/
theorem findReq_sole (hreqs : b.ep.reqs = [r]) : b.findReq r.id = some r := by
  simp [findReq, hreqs]

/-! ## No retry -/

theorem mayRetry_counted (own : Nat) (hcounted : r.counted) : r.mayRetry own = false := by
  simp [Req.mayRetry, hcounted]

theorem retryDue_counted (hfind : b.findReq id = some r) (hcounted : r.counted) : b.retryDue id = b := by
  simp [retryDue, hfind, mayRetry_counted _ hcounted]

theorem retrySend_counted (hfind : b.findReq id = some r) (hcounted : r.counted) : b.retrySend id = b := by
  simp [retrySend, hfind, hcounted]

/-! ## The outcome at 4L -/

theorem outcomeExpire_sent (hfind : b.findReq id = some r) (hsent : r.sent) (hdue : r.first + 4 * lifetime r.life ≤ b.now .ep) :
    b.outcomeExpire id = b.outcome r (if r.checkBad then 0xA else 0x7) [] := by
  simp [outcomeExpire, hfind, hsent, hdue]

end

theorem Quiet.streamDone (b : Blk) (r : Req) (st : Nat) : Quiet b (b.streamDone r st) := by
  unfold Blk.streamDone
  split
  · exact Quiet.refl b
  · exact Quiet.modEp b

/-- An operation under a condition leaves alone what the operation itself leaves alone. -/
theorem Quiet.when_ (b : Blk) (c : Bool) {f : Blk → Blk} (h : Quiet b (f b)) : Quiet b (b.when_ c f) := by
  unfold Blk.when_
  split
  · exact h
  · exact Quiet.refl b

/-- A request of an engine that fails, sent or not: it is gone, and the last thing sent is its status to the engine. -/
theorem outcome_failed {b : Blk} {r : Req} {eng st : Nat} (hwhy : r.why.answers eng) (hst : st ≠ 0) :
    (b.outcome r st []).ep.reqs = b.ep.reqs.filter (fun x => !(x.id == r.id)) ∧
      (b.outcome r st []).out = .ucie (.answer r.ctx eng st []) :: b.out := by
  have hbefore : Quiet (b.dropReq r.id) (((((b.dropReq r.id).streamDone r st).tagDone r).noteOutcome r st).waitersDone r.id) :=
    (((Quiet.streamDone _ _ _).trans (Quiet.tagDone _ _)).trans (Quiet.noteOutcome _ _ _)).trans (Quiet.modEp _)
  have hafter (x : Blk) : Quiet x (x.when_ (Req.fills r) (fun b => b.refreshEpSec)) := Quiet.when_ x _ (Quiet.refreshEpSec x)
  simp only [outcome, purposeDone_failed hwhy hst]
  exact ⟨(hafter _).reqs.trans hbefore.reqs, (hafter _).out.trans (congrArg _ hbefore.out)⟩

end Blk

section
variable {s : State} {r : Req}

/-- R60: the only request, 4L after its first issue, ends with CHECK_FAIL or LIFETIME_EXPIRED. -/
theorem outcomeExpiry_sole (hreqs : s.b.ep.reqs = [r]) (hsent : r.sent) (hdue : r.first + 4 * lifetime r.life ≤ s.b.now .ep) :
    Answers (.outcomeExpiry r.id) s (s.b.outcome r (if r.checkBad then 0xA else 0x7) []) := by
  rw [Answers, ← Blk.outcomeExpire_sent (Blk.findReq_sole hreqs) hsent hdue]
  rfl

/-- R60 where an engine waits for the request (a load, an acquire load, an atomic): the engine has the status and no data. -/
theorem outcomeExpiry_answers {eng : Nat} (hreqs : s.b.ep.reqs = [r]) (hsent : r.sent)
    (hdue : r.first + 4 * lifetime r.life ≤ s.b.now .ep) (hwhy : r.why.answers eng) :
    ∃ t, exec (.outcomeExpiry r.id) s = .next t ∧ t.b.ep.reqs = [] ∧
      t.b.out = .ucie (.answer r.ctx eng (if r.checkBad then 0xA else 0x7) []) :: s.b.out := by
  have hst : (if r.checkBad then 0xA else 0x7) ≠ 0 := by split <;> decide
  obtain ⟨hgone, hout⟩ := Blk.outcome_failed (b := s.b) hwhy hst
  exact ⟨_, outcomeExpiry_sole hreqs hsent hdue, hgone.trans (by simp [hreqs]), hout⟩

end

/-- Settles O46: the guards of both retry commands exclude a counted request; the outcome of R60 does not ask whether it was counted. -/
theorem countedNeverRetried : Obligations.CountedNeverRetried := by
  unfold Obligations.CountedNeverRetried
  intro s r hreqs hcounted
  have hfind : s.b.findReq r.id = some r := Blk.findReq_sole hreqs
  refine ⟨?_, ?_, fun hsent hdue => ⟨outcomeExpiry_sole hreqs hsent hdue, ?_⟩⟩
  · simp [exec, execRetryDue, State.on, Blk.retryDue_counted hfind hcounted]
  · simp [exec, execRetrySend, State.on, Blk.retrySend_counted hfind hcounted]
  · intro eng skip size fill hwhy
    exact outcomeExpiry_answers hreqs hsent hdue (by simp [hwhy, Purpose.answers])

end Sys2Proof.Machine
end

section
/-! SUPPORT. The sums of a reduction (R191, R195): an image fits its window, a sum of images splits into the count of saturated
contributions and the sum of windows, and the final rounding reads the second alone. -/

namespace Sys2Proof.Machine

open Sys2Proof

/-! ## One image (R184) -/

theorem natAbs_ite_neg (neg : Bool) (x : Int) : (if neg then -x else x).natAbs = x.natAbs := by
  cases neg <;> simp

/-- A magnitude cut at a limit, with a sign, stays within the limit. -/
theorem natAbs_cut_le (neg : Bool) (x lim : Nat) :
    (if lim < x then (if neg then -(lim : Int) else lim, true) else (if neg then -(x : Int) else x, false)).1.natAbs ≤ lim := by
  split
  · exact (natAbs_ite_neg neg lim).le
  · next hfits => exact (natAbs_ite_neg neg x).trans_le (Nat.le_of_not_lt hfits)

/-- An image lies within the symmetric window: each value is cut at the limit. -/
theorem natAbs_toImage_le (q : Int) (w : Nat) (v : Elem) : (toImage q w v).1.natAbs ≤ 2 ^ (w - 1) - 1 := by
  cases v with
  | nan => exact le_rfl
  | inf neg => exact (natAbs_ite_neg neg _).le
  | fin neg m e => exact natAbs_cut_le neg _ _

theorem windowBits_pos (code : Nat) : 0 < windowBits code := by
  unfold windowBits
  omega

/-! ## Sums of images (R191) -/

section
variable {w : Nat} {images : List (Int × Bool)}

/-- Contributions that saturated. -/
def saturatedCount (images : List (Int × Bool)) : Nat := (images.filter (fun x => x.2)).length

theorem saturatedCount_le : saturatedCount images ≤ images.length := List.length_filter_le _ _

theorem saturatedCount_cons (x : Int × Bool) (xs : List (Int × Bool)) :
    saturatedCount (x :: xs) = (if x.2 then 1 else 0) + saturatedCount xs := by
  rw [saturatedCount, List.filter_cons]
  split
  · exact Nat.add_comm _ 1
  · exact (Nat.zero_add _).symm

/-- An accumulator carries both sums in one integer. -/
theorem sum_imageSum (w : Nat) (images : List (Int × Bool)) :
    (images.map (imageSum w)).sum = (images.map Prod.fst).sum + saturatedCount images * 2 ^ (w + 16) := by
  induction images with
  | nil => simp [saturatedCount]
  | cons x xs ih =>
    rw [List.map_cons, List.sum_cons, ih, imageSum, List.map_cons, List.sum_cons, saturatedCount_cons]
    split <;> push_cast <;> ring

theorem natAbs_sum_fst_le {b : Nat} (h : ∀ x ∈ images, x.1.natAbs ≤ b) : (images.map Prod.fst).sum.natAbs ≤ images.length * b := by
  induction images with
  | nil => simp
  | cons x xs ih =>
    obtain ⟨hx, hxs⟩ := List.forall_mem_cons.mp h
    calc ((x :: xs).map Prod.fst).sum.natAbs ≤ x.1.natAbs + (xs.map Prod.fst).sum.natAbs := by
          simpa using Int.natAbs_add_le _ _
      _ ≤ b + xs.length * b := Nat.add_le_add hx (ih hxs)
      _ = (x :: xs).length * b := by rw [List.length_cons]; ring

/-- The bound of R191 on the sum of images of a full plane. -/
theorem natAbs_sum_fst_lt (hw : 0 < w) (hlen : images.length ≤ 16384) (h : ∀ x ∈ images, x.1.natAbs ≤ 2 ^ (w - 1) - 1) :
    (images.map Prod.fst).sum.natAbs < 2 ^ (w + 13) := by
  calc (images.map Prod.fst).sum.natAbs ≤ images.length * (2 ^ (w - 1) - 1) := natAbs_sum_fst_le h
    _ ≤ 16384 * (2 ^ (w - 1) - 1) := Nat.mul_le_mul_right _ hlen
    _ < 16384 * 2 ^ (w - 1) := by have := Nat.two_pow_pos (w - 1); omega
    _ = 2 ^ (w + 13) := by rw [show 16384 = 2 ^ 14 by rfl, ← pow_add]; congr 1; omega

end

/-! ## Both sums recovered (R195) -/

section
variable {w n : Nat} {a : Int}

/-- Half of the weight of a saturated contribution, on either side of 0, is room enough for the sum of images. -/
theorem satCount_add_mul (h : a.natAbs < 2 ^ (w + 15)) : satCount w (a + n * 2 ^ (w + 16)) = n := by
  have hhalf : (2 : Int) ^ (w + 16) = 2 * 2 ^ (w + 15) := by ring
  obtain ⟨hlo, hhi⟩ : -(2 : Int) ^ (w + 15) < a ∧ a < 2 ^ (w + 15) := abs_lt.mp (by rw [Int.abs_eq_natAbs]; exact_mod_cast h)
  rw [satCount, Int.ediv_eq_iff_of_pos (by positivity), hhalf]
  constructor <;> linarith

theorem imageTotal_add_mul (h : a.natAbs < 2 ^ (w + 15)) : imageTotal w (a + n * 2 ^ (w + 16)) = a := by
  rw [imageTotal, satCount_add_mul h, add_sub_cancel_right]

/-- The bound of R191 on an accumulator. -/
theorem natAbs_add_mul_lt (ha : a.natAbs < 2 ^ (w + 13)) (hn : n ≤ 16384) : (a + n * 2 ^ (w + 16)).natAbs < 2 ^ (w + 31) := by
  have hcount : (n * 2 ^ (w + 16) : Int).natAbs = n * 2 ^ (w + 16) := by rw [Int.natAbs_mul, Int.natAbs_pow]; rfl
  calc (a + n * 2 ^ (w + 16)).natAbs ≤ a.natAbs + n * 2 ^ (w + 16) := by simpa only [hcount] using Int.natAbs_add_le a (n * 2 ^ (w + 16))
    _ < 2 ^ (w + 13) + 16384 * 2 ^ (w + 16) := Nat.add_lt_add_of_lt_of_le ha (Nat.mul_le_mul_right _ hn)
    _ ≤ 2 ^ (w + 31) := by rw [pow_add, pow_add, pow_add]; omega

end

/-! ## The final rounding reads the sums of images alone (R195, R202) -/

@[simp] theorem mem_upto {i n : Nat} : i ∈ upto n ↔ i < n := List.mem_range

section
variable {dtype w count d i : Nat} {acc acc' : Tbl Int} {e : Int}

/-- R202: one count that is not 0 makes the chunk complete with RANGE. -/
theorem roundChunk_range (hi : i < count) (hsat : satCount w (acc.get i 0) ≠ 0) : (roundChunk dtype w acc count e d).2 := by
  have hany : (upto count).any (fun i => satCount w (acc.get i 0) != 0) = true :=
    List.any_eq_true.mpr ⟨i, mem_upto.mpr hi, bne_iff_ne.mpr hsat⟩
  simp only [roundChunk, hany, Bool.true_or]
  split <;> rfl

/-- R181: the index of a TH-B8 element of a whole unit lies in the chunk. -/
theorem thIndex_lt {u b j : Nat} (hu : u < count / 3968) (hb : b < 124) (hj : j < 32) : 3968 * u + 32 * b + j < count := by
  omega

/-- In both layouts the bytes come from the sums of images at indices of the chunk. -/
theorem roundChunk_congr (h : ∀ i, i < count → imageTotal w (acc.get i 0) = imageTotal w (acc'.get i 0)) :
    (roundChunk dtype w acc count e d).1 = (roundChunk dtype w acc' count e d).1 := by
  unfold roundChunk
  split
  · have hblock : ∀ u ∈ upto (count / 3968), ∀ b ∈ upto 124,
        thBlock ((upto 32).map fun j => imageTotal w (acc.get (3968 * u + 32 * b + j) 0)) e d =
          thBlock ((upto 32).map fun j => imageTotal w (acc'.get (3968 * u + 32 * b + j) 0)) e d := fun u hu b hb =>
      congrArg (thBlock · e d) (List.map_congr_left fun j hj =>
        h _ (thIndex_lt (mem_upto.mp hu) (mem_upto.mp hb) (mem_upto.mp hj)))
    refine congrArg (List.flatMap _) (List.map_congr_left fun u hu => ?_)
    simp only [List.map_congr_left (hblock u hu)]
  · refine congrArg (List.flatMap _) (List.map_congr_left fun i hi => ?_)
    simp only [h i (mem_upto.mp hi)]

end

/-- Settles O58: the accumulator is the sum of images, less than half a weight from 0, plus the count times the weight. -/
theorem reductionSumsRecovered : Obligations.ReductionSumsRecovered := by
  unfold Obligations.ReductionSumsRecovered
  refine ⟨?_, fun dtype w acc count e d i => roundChunk_range, fun dtype w acc acc' count e d => roundChunk_congr⟩
  intro code q l hl w images p c
  have hlen : images.length ≤ 16384 := (List.length_map _).trans_le hl
  have hp : p = (images.map Prod.fst).sum + saturatedCount images * 2 ^ (w + 16) := sum_imageSum w images
  have hbound : (images.map Prod.fst).sum.natAbs < 2 ^ (w + 13) :=
    natAbs_sum_fst_lt (windowBits_pos code) hlen (List.forall_mem_map.mpr fun v _ => natAbs_toImage_le q w v)
  have hroom : (images.map Prod.fst).sum.natAbs < 2 ^ (w + 15) := hbound.trans (Nat.pow_lt_pow_right (by decide) (by omega))
  have hc : c = saturatedCount images := (congrArg (satCount w) hp).trans (satCount_add_mul hroom)
  have ha : p - c * 2 ^ (w + 16) = (images.map Prod.fst).sum := (congrArg (imageTotal w) hp).trans (imageTotal_add_mul hroom)
  exact ⟨hc, ha, rfl, rfl, hp ▸ natAbs_add_mul_lt hbound (saturatedCount_le.trans hlen)⟩

end Sys2Proof.Machine
end
